-- ==== Sys2Proof/Word.lean ====
section
/-! DEFINITION. The words that cross the block's ports (00_scope.md R11, 20_memory.md R51, R52; 30_encoding.md R90). -/

namespace Sys2Proof

/-- A sample, a data byte, the checksum (R7: 8 bits, unsigned). -/
abbrev Byte := BitVec 8

/-- A SYM word (30_encoding.md R80). -/
abbrev SymWord := BitVec 2

/-- A SEG word (R81). -/
abbrev SegWord := BitVec 3

/-- A TOK word, `in_kind` above `in_data` (R82). -/
abbrev TokWord := BitVec 10

end Sys2Proof
end

