-- ==== Sys2Proof/Config.lean ====
section
/-! DEFINITION. What an implementation fixes: the parameters `PH_W`, `REM_W`, `CFG`, `LUT` as one plain datum
(00_scope.md R8 to R10), the constants of R7, and the one value the spec leaves free. -/

namespace Sys2Proof

/-- One row of `CFG` (R8): period and duration in samples, start phase index. -/
structure Row where
  P : Nat
  N : Nat
  K0 : Nat
  deriving DecidableEq, Repr

/-- The parameters of the block. `rows` are named by segment, `sine` is the sine ROM: one table a period (10_state.md
R30, R32). The spec fixes the defaults (Machine/Tables.lean); a run never writes any of it (R42). -/
structure Cfg where
  phW : Nat
  remW : Nat
  entry : Row
  tapeinA : Row
  tapeinB : Row
  bit0 : Row
  bit1 : Row
  sine : List (Nat × List Byte)
  deriving DecidableEq, Repr

/-- `SAMPLE_RATE` in Hz; informational (R6, R7). -/
abbrev Config.sampleRate : Nat := 44100

/-- `AMP` (R7). -/
abbrev Config.amp : Nat := 127

/-- `OFS` (R7). -/
abbrev Config.ofs : Nat := 127

/-- The checksum seed (R7). -/
abbrev Config.seed : Byte := 0xFF#8

/-- The contents of the ten registers of 10_state.md R20, as one datum: what the outputs are functions of (R206) and what
the observation of a run ends with (R211). -/
structure Regs where
  fs : BitVec 3
  fcode : BitVec 2
  ffs : BitVec 3
  cks : Byte
  sh : Byte
  bc : BitVec 3
  sym : BitVec 2
  sidx : BitVec 1
  ph : Nat
  rem : Nat
  deriving DecidableEq, Repr

/-- What `out_data` holds while `out_valid` = 0: any value (20_memory.md R51, 93 ID1), yet a function of the registers
alone (70_reset_and_hazards.md R206). A free value: it has no body (log 11). -/
opaque Config.idleOutData : Regs → Byte

end Sys2Proof
end

