-- ==== Sys2Proof/Syntax.lean ====
section
/-! DEFINITION. The instructions of the block, one constructor per row of spec/opcode_table.json, and the words and
text lines they are written in (30_encoding.md R80 to R82, R88, R91). -/

namespace Sys2Proof

/-- The four protocol symbols (00_scope.md R16; codes in 30_encoding.md R80). -/
inductive Sym where
  | entry
  | tapein
  | bit0
  | bit1
  deriving DecidableEq, Repr

/-- The five tone segments (R16; codes in R81). -/
inductive Seg where
  | entry
  | tapeinA
  | tapeinB
  | bit0
  | bit1
  deriving DecidableEq, Repr

/-- The 13 operations of R88. The operand of a TOK form is `tok[7:0]`: the data byte of `TOK.BYTE`, and bits that the
other three kinds ignore (R82). -/
inductive Instr where
  | entry
  | tapein
  | bit0
  | bit1
  | segEntry
  | segTapeinA
  | segTapeinB
  | segBit0
  | segBit1
  | tokByte (b : Byte)
  | tokEnd (x : Byte)
  | tokError (x : Byte)
  | tokRsvd (x : Byte)
  deriving DecidableEq, Repr

/-- An encoded operation: a word of one of the three formats (R88, R90). -/
inductive Code where
  | sym (w : SymWord)
  | seg (w : SegWord)
  | tok (w : TokWord)
  deriving DecidableEq, Repr

/-- Why a word is no instruction. -/
inductive Reject where
  /-- A SEG code 0b101, 0b110 or 0b111 (R89). -/
  | reservedSeg (w : SegWord)
  deriving DecidableEq, Repr

/-- A line of the token-stream notation (R91), its immediate not yet checked. -/
inductive Line where
  | byte (imm : Nat)
  | endOfStream
  | err
  | rsvd (imm : Nat)
  deriving DecidableEq, Repr

end Sys2Proof
end

