-- ==== Sys2Proof/Machine/Tables.lean ====
section
/-! DEFINITION. The read-only tables: `CFG` and `LUT` lookups and their default contents (10_state.md R30, R32;
40_dds.md R101), and the mapper's ROM `SEGS` (41_symbols.md R131). -/

namespace Sys2Proof

/-- `CFG(s)` (00_scope.md R12). -/
def Cfg.row (c : Cfg) : Seg → Row
  | .entry => c.entry
  | .tapeinA => c.tapeinA
  | .tapeinB => c.tapeinB
  | .bit0 => c.bit0
  | .bit1 => c.bit1

/-- The sub-table of period `P`, empty where the ROM has none (R32). -/
def Cfg.sineOf (c : Cfg) (P : Nat) : List Byte :=
  ((c.sine.find? (fun t => t.1 == P)).map (fun t => t.2)).getD []

/-- `LUT(P, k)`, which exists for k < P of a period in the ROM and nowhere else (R10, 20_memory.md R50 (d)). -/
def Cfg.lut (c : Cfg) (P k : Nat) : Option Byte :=
  if k < P then (c.sineOf P)[k]? else none

/-- `SEGS(sym)` (41_symbols.md R131). -/
def segs : Sym → List Seg
  | .entry => [.entry]
  | .tapein => [.tapeinA, .tapeinB]
  | .bit0 => [.bit0]
  | .bit1 => [.bit1]

/-- `SEGS(sym)[0]`, which every symbol has. -/
def firstSeg : Sym → Seg
  | .entry => .entry
  | .tapein => .tapeinA
  | .bit0 => .bit0
  | .bit1 => .bit1

/-- P = 57 (R101). -/
def sine57 : List Byte :=
  [127, 140, 154, 168, 181, 193, 205, 215, 225, 233, 240, 245, 250, 252, 253, 253, 251, 248, 243, 236,
   229, 220, 210, 199, 187, 174, 161, 147, 133, 120, 106, 92, 79, 66, 54, 43, 33, 24, 17, 10,
   5, 2, 0, 0, 1, 3, 8, 13, 20, 28, 38, 48, 60, 72, 85, 99, 113]

/-- P = 18 (R101). -/
def sine18 : List Byte :=
  [127, 170, 208, 236, 252, 252, 236, 208, 170, 127, 83, 45, 17, 1, 1, 17, 45, 83]

/-- P = 22 (R101), shared by `SEG_TAPEIN_B` and `SEG_BIT0` (R32). -/
def sine22 : List Byte :=
  [127, 162, 195, 222, 242, 252, 252, 242, 222, 195, 162, 127, 91, 58, 31, 11, 1, 1, 11, 31, 58, 91]

/-- P = 44 (R101). -/
def sine44 : List Byte :=
  [127, 145, 162, 179, 195, 210, 222, 233, 242, 248, 252, 254, 252, 248, 242, 233, 222, 210, 195, 179, 162, 145,
   127, 108, 91, 74, 58, 43, 31, 20, 11, 5, 1, 0, 1, 5, 11, 20, 31, 43, 58, 74, 91, 108]

/-- The default parameters: the widths of R9, the rows of R30, the ROM of R101. -/
def defaultCfg : Cfg where
  phW := 6
  remW := 16
  entry := { P := 57, N := 46746, K0 := 0 }
  tapeinA := { P := 18, N := 9, K0 := 0 }
  tapeinB := { P := 22, N := 11, K0 := 11 }
  bit0 := { P := 22, N := 22, K0 := 0 }
  bit1 := { P := 44, N := 44, K0 := 0 }
  sine := [(57, sine57), (18, sine18), (22, sine22), (44, sine44)]

end Sys2Proof
end

