-- ==== Sys2Proof/WellFormed.lean ====
section
/-! DEFINITION. The checks a model makes before it gives a meaning: of a configuration (10_state.md R31), of a line of
the assembler notation (30_encoding.md R91), and of an instruction. -/

namespace Sys2Proof

/-- R31's conditions on one row, at the widths `phW` and `remW`. -/
def Row.wf (phW remW : Nat) (r : Row) : Bool :=
  decide (1 ≤ r.P) && decide (r.P ≤ 2 ^ phW) &&
  decide (1 ≤ r.N) && decide (r.N ≤ 2 ^ remW - 1) &&
  decide (r.K0 < r.P)

/-- `LUT(P, k)` is defined for every k below the period of the row: its sub-table is at least that long. -/
def Cfg.lutCovers (c : Cfg) (r : Row) : Bool := decide (r.P ≤ (c.sineOf r.P).length)

/-- One row of `CFG` is as R31 asks. -/
def Cfg.rowOk (c : Cfg) (g : Seg) : Bool := (c.row g).wf c.phW c.remW && c.lutCovers (c.row g)

/-- A well-formed `CFG` (R31): every row is. -/
def Cfg.wf (c : Cfg) : Bool :=
  c.rowOk .entry && c.rowOk .tapeinA && c.rowOk .tapeinB && c.rowOk .bit0 && c.rowOk .bit1

/-- `<imm8>` is 0 to 255 (R91). -/
def Line.wf : Line → Bool
  | .byte n => decide (n ≤ 255)
  | .endOfStream => true
  | .err => true
  | .rsvd n => decide (n ≤ 255)

/-- Every instruction term is well-formed: the only operand is 8 bits, and every value of it is legal or ignored
(R82). -/
def Instr.wf : Instr → Bool
  | .entry => true
  | .tapein => true
  | .bit0 => true
  | .bit1 => true
  | .segEntry => true
  | .segTapeinA => true
  | .segTapeinB => true
  | .segBit0 => true
  | .segBit1 => true
  | .tokByte _ => true
  | .tokEnd _ => true
  | .tokError _ => true
  | .tokRsvd _ => true

end Sys2Proof
end

