-- ==== Sys2Proof/Decode.lean ====
section
/-! DEFINITION. Encodings (30_encoding.md): the decoder and after it the encoder, the configuration descriptor, the
assembler notation with its pseudo-instructions, and the reading of opcode-table words. -/

namespace Sys2Proof

/-- The symbol of a SYM code; all four are legal (R80). -/
def Sym.ofCode (w : SymWord) : Sym :=
  if w = 0b00#2 then .entry else if w = 0b01#2 then .tapein else if w = 0b10#2 then .bit0 else .bit1

/-- The SYM code of a symbol (R80). -/
def Sym.code : Sym → SymWord
  | .entry => 0b00#2
  | .tapein => 0b01#2
  | .bit0 => 0b10#2
  | .bit1 => 0b11#2

/-- The segment of a SEG code; 0b101 to 0b111 are reserved (R81, R89). -/
def Seg.ofCode (w : SegWord) : Option Seg :=
  if w = 0b000#3 then some .entry else if w = 0b001#3 then some .tapeinA else if w = 0b010#3 then some .tapeinB
  else if w = 0b011#3 then some .bit0 else if w = 0b100#3 then some .bit1 else none

/-- The SEG code of a segment (R81). -/
def Seg.code : Seg → SegWord
  | .entry => 0b000#3
  | .tapeinA => 0b001#3
  | .tapeinB => 0b010#3
  | .bit0 => 0b011#3
  | .bit1 => 0b100#3

/-- `kind = tok[9:8]` (R87). -/
def tokKind (w : TokWord) : BitVec 2 := w.extractLsb' 8 2

/-- `b = tok[7:0]` (R87). -/
def tokData (w : TokWord) : Byte := w.extractLsb' 0 8

/-- `tok = {in_kind, in_data}` (R82). -/
def tokWord (kind : BitVec 2) (data : Byte) : TokWord := kind ++ data

/-- The operation of a SYM word. -/
def decodeSym (w : SymWord) : Instr :=
  match Sym.ofCode w with
  | .entry => .entry
  | .tapein => .tapein
  | .bit0 => .bit0
  | .bit1 => .bit1

/-- The operation of a SEG word, reserved codes rejected by name. -/
def decodeSeg (w : SegWord) : Except Reject Instr :=
  match Seg.ofCode w with
  | some .entry => .ok .segEntry
  | some .tapeinA => .ok .segTapeinA
  | some .tapeinB => .ok .segTapeinB
  | some .bit0 => .ok .segBit0
  | some .bit1 => .ok .segBit1
  | none => .error (.reservedSeg w)

/-- The operation of a TOK word: equality of `tok[9:8]` alone selects it (R88). -/
def decodeTok (w : TokWord) : Instr :=
  if tokKind w = 0b00#2 then .tokByte (tokData w)
  else if tokKind w = 0b01#2 then .tokEnd (tokData w)
  else if tokKind w = 0b10#2 then .tokError (tokData w)
  else .tokRsvd (tokData w)

/-- The decoder. -/
def decode : Code → Except Reject Instr
  | .sym w => .ok (decodeSym w)
  | .seg w => decodeSeg w
  | .tok w => .ok (decodeTok w)

/-- The encoder: the word of an instruction, from the tables of R80 to R82. -/
def encode : Instr → Code
  | .entry => .sym 0b00#2
  | .tapein => .sym 0b01#2
  | .bit0 => .sym 0b10#2
  | .bit1 => .sym 0b11#2
  | .segEntry => .seg 0b000#3
  | .segTapeinA => .seg 0b001#3
  | .segTapeinB => .seg 0b010#3
  | .segBit0 => .seg 0b011#3
  | .segBit1 => .seg 0b100#3
  | .tokByte b => .tok (0b00#2 ++ b)
  | .tokEnd x => .tok (0b01#2 ++ x)
  | .tokError x => .tok (0b10#2 ++ x)
  | .tokRsvd x => .tok (0b11#2 ++ x)

/-- The bits of a word as a number. -/
def Code.toNat : Code → Nat
  | .sym w => w.toNat
  | .seg w => w.toNat
  | .tok w => w.toNat

/-- How many bits a word has (R90). -/
def Code.width : Code → Nat
  | .sym _ => 2
  | .seg _ => 3
  | .tok _ => 10

/-- The configuration descriptor of a row (R86): P above N above K0, at the widths `phW` and `remW`. -/
def Row.descriptor (phW remW : Nat) (r : Row) : Nat :=
  (r.P * 2 ^ remW + r.N) * 2 ^ phW + r.K0

/-- `P = w[28:22]`, `N = w[21:6]`, `K0 = w[5:0]` at the default widths (R87), and likewise at others. -/
def Row.ofDescriptor (phW remW w : Nat) : Row where
  P := w / 2 ^ (phW + remW) % 2 ^ (phW + 1)
  N := w / 2 ^ phW % 2 ^ remW
  K0 := w % 2 ^ phW

/-- The bit symbol of a bit value: `BIT0 + b` (R80). -/
def bitSym (v : Bool) : Sym := if v then .bit1 else .bit0

/-- `bitsyms(b)` (41_symbols.md R137) and the pseudo-instruction `BYTE b` (R92): MSB first. -/
def bitsyms (b : Byte) : List Sym :=
  [bitSym (b.getLsbD 7), bitSym (b.getLsbD 6), bitSym (b.getLsbD 5), bitSym (b.getLsbD 4),
   bitSym (b.getLsbD 3), bitSym (b.getLsbD 2), bitSym (b.getLsbD 1), bitSym (b.getLsbD 0)]

/-- `0xFF ^ b1 ^ … ^ bn` (42_framing.md R158). -/
def checksum (bs : List Byte) : Byte := bs.foldl (fun c b => c ^^^ b) Config.seed

/-- The pseudo-instruction `FRAME b1, …, bn` (R92). -/
def frameSyms (bs : List Byte) : List Sym :=
  [.entry, .tapein] ++ bs.flatMap bitsyms ++ bitsyms (checksum bs)

/-- The pseudo-instruction `tok.stream b1, …, bn` (R92). -/
def tokStream (bs : List Byte) : List Instr := bs.map .tokByte ++ [.tokEnd 0]

/-- The instruction of a line of the token-stream notation (R91), with the canonical zero data of R82. -/
def Line.assemble (l : Line) : Option Instr :=
  if l.wf then
    match l with
    | .byte n => some (.tokByte (BitVec.ofNat 8 n))
    | .endOfStream => some (.tokEnd 0)
    | .err => some (.tokError 0)
    | .rsvd n => some (.tokRsvd (BitVec.ofNat 8 n))
  else none

/-- One hex digit. R91 leaves its letter case open: capitals (DESIGN CHOICE, safe; log 24). -/
def hexDigit (n : Nat) : String := (("0123456789ABCDEF".toList)[n % 16]?.getD '0').toString

/-- `<imm8>`: `0x` and two hex digits (R91). -/
def imm8Text (b : Byte) : String := "0x" ++ hexDigit (b.toNat / 16) ++ hexDigit b.toNat

/-- The notation of R91: token lines, symbol names, segment names. -/
def Instr.text : Instr → String
  | .entry => "ENTRY"
  | .tapein => "TAPEIN"
  | .bit0 => "BIT0"
  | .bit1 => "BIT1"
  | .segEntry => "SEG_ENTRY"
  | .segTapeinA => "SEG_TAPEIN_A"
  | .segTapeinB => "SEG_TAPEIN_B"
  | .segBit0 => "SEG_BIT0"
  | .segBit1 => "SEG_BIT1"
  | .tokByte b => "tok.byte " ++ imm8Text b
  | .tokEnd _ => "tok.end"
  | .tokError _ => "tok.err"
  | .tokRsvd x => "tok.rsvd " ++ imm8Text x

/-- Which format an opcode-table word of `nbits` bits is read in. The table gives SYM 2 bits, SEG 3 and TOK 10. In
whole bytes SYM and SEG are both 8 bits and share the numbers 0 to 3: a byte of 0 to 3 is read as SYM and one of 4 to 7
as SEG (DESIGN CHOICE; log 9). At 17 to 24 bits only the row `SEG_TAPEIN_B` can stand, whose "fields" at bits 11 and
22 the reader of the table made from the values of N, K0 and P: they are no bits of a SEG word (R81) and are passed
over. -/
def codeOfTable (nbits w : Nat) : Option Code :=
  if nbits ≤ 2 then (if w < 4 then some (.sym (BitVec.ofNat 2 w)) else none)
  else if nbits = 3 then (if w < 8 then some (.seg (BitVec.ofNat 3 w)) else none)
  else if nbits ≤ 8 then
    (if w < 4 then some (.sym (BitVec.ofNat 2 w)) else if w < 8 then some (.seg (BitVec.ofNat 3 w)) else none)
  else if nbits ≤ 16 then (if w < 1024 then some (.tok (BitVec.ofNat 10 w)) else none)
  else if nbits ≤ 24 then
    (if w % 2 ^ 11 < 8 ∧ w / 2 ^ 12 % 2 ^ 10 = 0 ∧ w < 2 ^ 23 then some (.seg (BitVec.ofNat 3 (w % 8))) else none)
  else none

/-- The instruction the decoder reads from an opcode-table word. -/
def decodeTableWord (nbits w : Nat) : Option Instr :=
  match codeOfTable nbits w with
  | some c =>
    match decode c with
    | .ok i => some i
    | .error _ => none
  | none => none

end Sys2Proof
end

