-- ==== Sys2Proof/Machine/Codes.lean ====
section
/-! DEFINITION. The codes that stand in the registers `fs`, `ffs` and `fcode` (30_encoding.md R83, R85). -/

namespace Sys2Proof.Machine

/-- Entry tone being emitted (R83). -/
abbrev FS.preEntry : BitVec 3 := 0b000#3
/-- Tape-in marker being emitted. -/
abbrev FS.preTapein : BitVec 3 := 0b001#3
/-- Waiting for the next token; no sample on offer. -/
abbrev FS.payWait : BitVec 3 := 0b010#3
/-- Bit symbols of a data byte being emitted. -/
abbrev FS.payBits : BitVec 3 := 0b011#3
/-- Bit symbols of the checksum being emitted. -/
abbrev FS.trlBits : BitVec 3 := 0b100#3
/-- Frame complete. -/
abbrev FS.done : BitVec 3 := 0b101#3
/-- Fault taken. -/
abbrev FS.fault : BitVec 3 := 0b110#3
/-- Never written; a state that holds it is refused (R89). -/
abbrev FS.reserved : BitVec 3 := 0b111#3

/-- No fault (R85). -/
abbrev FC.none : BitVec 2 := 0b00#2
/-- `TOK.ERROR` consumed. -/
abbrev FC.readError : BitVec 2 := 0b01#2
/-- The sink asserted `out_err` on an offered sample. -/
abbrev FC.writeError : BitVec 2 := 0b10#2
/-- `TOK.RSVD` consumed. -/
abbrev FC.illegalToken : BitVec 2 := 0b11#2

end Sys2Proof.Machine
end

