-- ==== Sys2Proof/Machine/State.lean ====
section
/-! DEFINITION. The state: the ten registers of 10_state.md R20, the read-only parameters, the input pins at the coming
clock edges and the record of what crossed the ports; how a step can stop; the state after reset (R40). -/

namespace Sys2Proof.Machine

/-- The input pins at one clock edge (20_memory.md R51 to R53). -/
structure Edge where
  rst : Bool
  outReady : Bool
  outErr : Bool
  inValid : Bool
  inKind : BitVec 2
  inData : Byte
  deriving DecidableEq, Repr

/-- Nothing asserted. -/
def Edge.idle : Edge :=
  { rst := false, outReady := false, outErr := false, inValid := false, inKind := 0, inData := 0 }

/-- The transaction steps of 00_scope.md R13, with what crossed a port in them. -/
inductive Event where
  | reset
  | sample (v : Byte)
  | wfail
  | token (w : TokWord)
  deriving DecidableEq, Repr

/-- The state. `fs` to `rem` are the spec's ten registers (R20 to R29). `ph` is a register of `cfg.phW` bits and `rem`
one of `cfg.remW` bits: they are written through `State.setPh` and `State.setRem`, which keep that many low bits
(log 2). `cfg` is the read-only parameters (R42; log 1), `edges` the environment to come, the next edge first (log 3),
`trace` the steps that happened, newest first (log 4). -/
structure State where
  fs : BitVec 3
  fcode : BitVec 2
  ffs : BitVec 3
  cks : Byte
  sh : Byte
  bc : BitVec 3
  sym : BitVec 2
  sidx : BitVec 1
  ph : Nat
  rem : Nat
  cfg : Cfg
  edges : List Edge
  trace : List Event
  deriving DecidableEq, Repr

/-- Why a step stops with a fault of the model. The block's own faults are no such thing: they are next states in
`FS.fault` (60_exceptions.md R183). -/
inductive Fault where
  /-- EMIT reads `LUT(P, k)` where the ROM has no such entry (20_memory.md R50 (d), 40_dds.md R101). Raised by
  `emit`; no state that keeps R35 (a) under a well-formed `CFG` raises it. Safe: the model stops (log 15). -/
  | noLutEntry (P k : Nat)
  deriving DecidableEq, Repr

/-- Why a step is refused. -/
inductive Refusal where
  /-- The instruction has no meaning yet. Raised by no arm of `exec`. Safe. -/
  | notModelled (mnemonic : String)
  /-- `CFG` is not well-formed: R31 tells a model to refuse it (93 ID5). Raised at every edge. Safe (log 13). -/
  | illFormedConfig
  /-- `fs` = 0b111, or `sidx` = 1 with `sym` ≠ `TAPEIN`: 30_encoding.md R89 tells a model to refuse it (93 ID7).
  Raised at every edge but a RESET edge, and by `emit`. Safe (log 14). -/
  | reservedState
  deriving DecidableEq, Repr

/-- The reset values of 10_state.md R40 under the parameters `c`, with the pins `es` at the coming edges and nothing
recorded yet. -/
def State.resetWith (c : Cfg) (es : List Edge) : State where
  fs := FS.preEntry
  fcode := FC.none
  ffs := 0b000#3
  cks := Config.seed
  sh := 0x00#8
  bc := 0#3
  sym := 0b00#2
  sidx := 0#1
  ph := c.entry.K0
  rem := c.entry.N
  cfg := c
  edges := es
  trace := []

/-- The machine right after reset (R40), with the default parameters and idle pins. -/
def State.reset : State := State.resetWith defaultCfg []

end Sys2Proof.Machine
end

