-- ==== Sys2Proof/Machine/Operands.lean ====
section
/-! DEFINITION. The operands the steps read: the current segment, the bit of the byte being transmitted, the SYM code of
a bit value, the sample on offer. -/

namespace Sys2Proof.Machine

/-- `SEGS(t)[j]` of a SYM code (41_symbols.md R131), where there is one. -/
def segAt (t : SymWord) (j : Nat) : Option Seg := (segs (Sym.ofCode t))[j]?

/-- `seg = SEGS(sym)[sidx]` (10_state.md R33). -/
def State.seg (s : State) : Option Seg := segAt s.sym s.sidx.toNat

/-- The row of the SEG code `w`, none for a reserved code: the `CFG` ROM as it is indexed (20_memory.md R50 (c)). -/
def rowAt (c : Cfg) (w : SegWord) : Option Row := (Seg.ofCode w).map c.row

/-- `BIT0 + b` = `{1, b}` as a SYM code: bit 1 marks a data bit, bit 0 is its value (30_encoding.md R80). -/
def bitCode (v : Bool) : SymWord := 1#1 ++ BitVec.ofBool v

/-- `sh[bc]` (R87). -/
def State.bit (s : State) : Bool := s.sh.getLsbD s.bc.toNat

/-- The ten registers (10_state.md R20). -/
def State.regs (s : State) : Regs where
  fs := s.fs
  fcode := s.fcode
  ffs := s.ffs
  cks := s.cks
  sh := s.sh
  bc := s.bc
  sym := s.sym
  sidx := s.sidx
  ph := s.ph
  rem := s.rem

/-- The sample `LUT(CFG(seg).P, ph)` (20_memory.md R51), where the ROM has it. -/
def State.offered (s : State) : Option Byte :=
  match s.seg with
  | some g => s.cfg.lut (s.cfg.row g).P s.ph
  | none => none

end Sys2Proof.Machine
end

