-- ==== Sys2Proof/Machine/Flags.lean ====
section
/-! DEFINITION. The block has no condition flag (10_state.md R37). Its Boolean outputs, its STATUS word and the other
output pins, all functions of the registers alone (70_reset_and_hazards.md R206). -/

namespace Sys2Proof.Machine

/-- A framing state in which a segment is active (R34). -/
def activeFs (f : BitVec 3) : Bool :=
  f == FS.preEntry || f == FS.preTapein || f == FS.payBits || f == FS.trlBits

/-- `out_valid`, equal to `active` (R34, 20_memory.md R51). -/
def State.outValid (s : State) : Bool := activeFs s.fs

/-- `in_ready` (R34, R52). -/
def State.inReady (s : State) : Bool := s.fs == FS.payWait

/-- `out_data` (R51): the sample on offer, or any value where there is none. -/
def State.outData (s : State) : Byte :=
  match s.outValid, s.offered with
  | true, some v => v
  | _, _ => Config.idleOutData s.regs

/-- The STATUS word `{ffs, fcode, fs}` (R36, 30_encoding.md R84). -/
def State.status (s : State) : Byte := s.ffs ++ s.fcode ++ s.fs

/-- No reserved internal code is held (R89): `fs` is not 0b111, and `sidx` is 1 only with `TAPEIN`. -/
def State.legal (s : State) : Bool := s.fs != FS.reserved && (s.sidx == 0#1 || s.sym == 0b01#2)

end Sys2Proof.Machine
end

