-- ==== Sys2Proof/Machine/Ops.lean ====
section
/-! DEFINITION. The shared operations over the state: register writes of the parameterised widths, the port primitives,
`seg_start`, `issue`, `symbol_done`, fault entry (the block's one exception operation; it has no return, R185) and the
reset of the registers. -/

namespace Sys2Proof.Machine

/-- `ph <- k`, a register of `PH_W` bits (10_state.md R28). -/
def State.setPh (s : State) (k : Nat) : State := { s with ph := k % 2 ^ s.cfg.phW }

/-- `rem <- n`, a register of `REM_W` bits (R29). -/
def State.setRem (s : State) (n : Nat) : State := { s with rem := n % 2 ^ s.cfg.remW }

/-- `rem <- rem - 1`. From 0, which no reachable active state holds (R35 (a)), the register wraps (DESIGN CHOICE; log
18). -/
def State.decRem (s : State) : State := s.setRem (s.rem + (2 ^ s.cfg.remW - 1))

/-- A step is recorded. -/
def State.log (s : State) (e : Event) : State := { s with trace := e :: s.trace }

/-- `SampleWrite(v)` (00_scope.md R12): the sample reaches the sink. -/
def State.sampleWrite (s : State) (v : Byte) : State := s.log (.sample v)

/-- `TokRead()` (R12): the token is consumed. -/
def State.tokRead (s : State) (w : TokWord) : State := s.log (.token w)

/-- `seg_start(g)` (40_dds.md R103). -/
def segStart (g : Seg) (s : State) : State := (s.setPh (s.cfg.row g).K0).setRem (s.cfg.row g).N

/-- `issue(t)` (41_symbols.md R130). -/
def issue (t : SymWord) (s : State) : State := segStart (firstSeg (Sym.ofCode t)) { s with sym := t, sidx := 0#1 }

/-- `symbol_done()` (42_framing.md R157). In the states in which no symbol is active it never runs, and it changes
nothing there. -/
def symbolDone (s : State) : State :=
  if s.fs = FS.preEntry then issue 0b01#2 { s with fs := FS.preTapein }
  else if s.fs = FS.preTapein then { s with fs := FS.payWait }
  else if s.fs = FS.payBits ∨ s.fs = FS.trlBits then
    (if s.bc = 0#3 then { s with fs := if s.fs = FS.payBits then FS.payWait else FS.done }
     else
      let s1 := { s with bc := s.bc - 1#3 }
      issue (bitCode s1.bit) s1)
  else s

/-- `raise Fault(code)`, the fault entry (60_exceptions.md R183). -/
def raiseFault (code : BitVec 2) (s : State) : State := { s with ffs := s.fs, fs := FS.fault, fcode := code }

/-- The writes of RESET (70_reset_and_hazards.md R200): all ten registers, not the parameters. -/
def resetRegs (s : State) : State :=
  ({ s with fs := FS.preEntry, fcode := FC.none, ffs := 0b000#3, cks := Config.seed, sh := 0x00#8, bc := 0#3,
            sym := 0b00#2, sidx := 0#1 }.setPh s.cfg.entry.K0).setRem s.cfg.entry.N

/-- A TOKEN step (42_framing.md §2): enabled only in `PAY_WAIT`, where the token `w` is read and then `body` runs. Where
it is not enabled the token is not consumed (20_memory.md R52) and nothing changes. -/
def tokenStep (w : TokWord) (body : State → State) (s : State) : Host.Outcome State Fault Refusal :=
  if s.inReady then .next (body (s.tokRead w)) else .next s

end Sys2Proof.Machine
end

