-- ==== Sys2Proof/Machine/Segments.lean ====
section
/-! DEFINITION. The SEG family: the mapper issues a segment to the DDS (40_dds.md R103, R110 to R114). The N samples of
the segment are delivered by the N EMIT steps that follow (R105, 00_scope.md R13; log 6). -/

namespace Sys2Proof.Machine

/-- `SEG_ENTRY` (R110). -/
def execSegEntry (s : State) : Host.Outcome State Fault Refusal := .next (segStart .entry s)

/-- `SEG_TAPEIN_A` (R111). -/
def execSegTapeinA (s : State) : Host.Outcome State Fault Refusal := .next (segStart .tapeinA s)

/-- `SEG_TAPEIN_B` (R112). -/
def execSegTapeinB (s : State) : Host.Outcome State Fault Refusal := .next (segStart .tapeinB s)

/-- `SEG_BIT0` (R113). -/
def execSegBit0 (s : State) : Host.Outcome State Fault Refusal := .next (segStart .bit0 s)

/-- `SEG_BIT1` (R114). -/
def execSegBit1 (s : State) : Host.Outcome State Fault Refusal := .next (segStart .bit1 s)

end Sys2Proof.Machine
end

