-- ==== Sys2Proof/Machine/Symbols.lean ====
section
/-! DEFINITION. The SYM family: the framing sequencer issues a symbol to the mapper (41_symbols.md R130, R133 to R136).
The symbol's samples are delivered by the EMIT steps that follow (00_scope.md R13, R132; log 6). -/

namespace Sys2Proof.Machine

/-- `ENTRY` (R133). -/
def execEntry (s : State) : Host.Outcome State Fault Refusal := .next (issue 0b00#2 s)

/-- `TAPEIN` (R134). -/
def execTapein (s : State) : Host.Outcome State Fault Refusal := .next (issue 0b01#2 s)

/-- `BIT0` (R135). -/
def execBit0 (s : State) : Host.Outcome State Fault Refusal := .next (issue 0b10#2 s)

/-- `BIT1` (R136). -/
def execBit1 (s : State) : Host.Outcome State Fault Refusal := .next (issue 0b11#2 s)

end Sys2Proof.Machine
end

