-- ==== Sys2Proof/Machine/Tokens.lean ====
section
/-! DEFINITION. The TOK family: the framing sequencer executes an input token (42_framing.md R153 to R156). -/

namespace Sys2Proof.Machine

/-- The part that BYTE and END share: the byte `b` starts to be transmitted in the framing state `f`, MSB first. -/
def startByte (f : BitVec 3) (b : Byte) (s : State) : State :=
  issue (bitCode (b.getLsbD 7)) { s with sh := b, bc := 7#3, fs := f }

/-- `TOK.BYTE b` (R153). -/
def execTokByte (b : Byte) (s : State) : Host.Outcome State Fault Refusal :=
  tokenStep (tokWord 0b00#2 b) (fun s1 => startByte FS.payBits b { s1 with cks := s1.cks ^^^ b }) s

/-- `TOK.END` (R154); its data bits are ignored. -/
def execTokEnd (x : Byte) (s : State) : Host.Outcome State Fault Refusal :=
  tokenStep (tokWord 0b01#2 x) (fun s1 => startByte FS.trlBits s1.cks s1) s

/-- `TOK.ERROR` (R155); its data bits are ignored. -/
def execTokError (x : Byte) (s : State) : Host.Outcome State Fault Refusal :=
  tokenStep (tokWord 0b10#2 x) (raiseFault FC.readError) s

/-- `TOK.RSVD` (R156); its data bits are ignored. -/
def execTokRsvd (x : Byte) (s : State) : Host.Outcome State Fault Refusal :=
  tokenStep (tokWord 0b11#2 x) (raiseFault FC.illegalToken) s

end Sys2Proof.Machine
end

