-- ==== Sys2Proof/Machine/Dispatch.lean ====
section
/-! DEFINITION. One arm per instruction. -/

namespace Sys2Proof.Machine

def exec (i : Instr) (s : State) : Host.Outcome State Fault Refusal :=
  match i with
  | .entry => Sys2Proof.Machine.execEntry s
  | .tapein => Sys2Proof.Machine.execTapein s
  | .bit0 => Sys2Proof.Machine.execBit0 s
  | .bit1 => Sys2Proof.Machine.execBit1 s
  | .segEntry => Sys2Proof.Machine.execSegEntry s
  | .segTapeinA => Sys2Proof.Machine.execSegTapeinA s
  | .segTapeinB => Sys2Proof.Machine.execSegTapeinB s
  | .segBit0 => Sys2Proof.Machine.execSegBit0 s
  | .segBit1 => Sys2Proof.Machine.execSegBit1 s
  | .tokByte b => Sys2Proof.Machine.execTokByte b s
  | .tokEnd x => Sys2Proof.Machine.execTokEnd x s
  | .tokError x => Sys2Proof.Machine.execTokError x s
  | .tokRsvd x => Sys2Proof.Machine.execTokRsvd x s

end Sys2Proof.Machine
end

