-- ==== Sys2Proof/Machine/Steps.lean ====
section
/-! DEFINITION. The steps that are no row of the opcode table: EMIT (40_dds.md R104), WFAIL (60_exceptions.md R182) and
RESET (70_reset_and_hazards.md R200). -/

namespace Sys2Proof.Machine

/-- EMIT's last part, when the segment is complete (R104): the next segment of the symbol starts, or the symbol is
done. -/
def segmentDone (s : State) : State :=
  match segAt s.sym (s.sidx.toNat + 1) with
  | some g => segStart g { s with sidx := s.sidx + 1#1 }
  | none => symbolDone s

/-- EMIT's part for every sample (R104): the sample `v` on offer is delivered, the phase advances modulo `P`, one
sample less remains. -/
def deliver (P : Nat) (v : Byte) (s : State) : State :=
  ((s.sampleWrite v).setPh ((s.ph + 1) % P)).decRem

/-- EMIT (R104). -/
def emit (s : State) : Host.Outcome State Fault Refusal :=
  match s.seg with
  | none => .refused .reservedState
  | some g =>
    match s.cfg.lut (s.cfg.row g).P s.ph with
    | none => .fault (.noLutEntry (s.cfg.row g).P s.ph)
    | some v =>
      let s1 := deliver (s.cfg.row g).P v s
      if s1.rem = 0 then .next (segmentDone s1) else .next s1

/-- WFAIL (R182): no sample is delivered. -/
def wfail (s : State) : State := raiseFault FC.writeError (s.log .wfail)

/-- RESET (R200). -/
def resetStep (s : State) : State := resetRegs (s.log .reset)

end Sys2Proof.Machine
end

