-- ==== Sys2Proof/Machine/Clock.lean ====
section
/-! DEFINITION. One clock edge: which step happens (60_exceptions.md R186, 70_reset_and_hazards.md R206), and the fetch
and execution of the token at the input port. Also how an encoded operation is brought to the place where the very
next step runs it. -/

namespace Sys2Proof.Machine

/-- The TOKEN step: the word on the input pins is decoded and executed (20_memory.md R52). -/
def runToken (e : Edge) (s : State) : Host.Outcome State Fault Refusal :=
  exec (decodeTok (tokWord e.inKind e.inData)) s

/-- One edge with the pins `e`. An ill-formed configuration is refused (10_state.md R31; log 13), then RESET has
priority over everything (R200) and works from any register contents, a reserved code is refused (R89; log 14), and
then come WFAIL, EMIT, TOKEN and hold in the order of R186. -/
def runEdge (e : Edge) (s : State) : Host.Outcome State Fault Refusal :=
  if s.cfg.wf = false then .refused .illFormedConfig
  else if e.rst then .next (resetStep s)
  else if s.legal = false then .refused .reservedState
  else if s.outValid && e.outErr then .next (wfail s)
  else if s.outValid && e.outReady then emit s
  else if s.inReady && e.inValid then runToken e s
  else .next s

/-- The pins at the next edge; where the environment lists none, nothing is asserted (log 3). -/
def State.nextEdge (s : State) : Edge := s.edges.headD Edge.idle

/-- The state whose next edge has passed. -/
def State.passEdge (s : State) : State := { s with edges := s.edges.tail }

/-- The sink accepts. -/
def acceptEdge : Edge := { Edge.idle with outReady := true }

/-- The sink reports an error. -/
def errEdge : Edge := { Edge.idle with outErr := true }

/-- The host resets. -/
def rstEdge : Edge := { Edge.idle with rst := true }

/-- The source offers the token `w`. -/
def tokenEdge (w : TokWord) : Edge := { Edge.idle with inValid := true, inKind := tokKind w, inData := tokData w }

/-- `e` becomes the next edge, before those that were to come. -/
def State.placeEdge (s : State) (e : Edge) : State := { s with edges := e :: s.edges }

/-- The last sample of segment `g` is on offer: the next EMIT completes it. -/
def State.atLastSample (g : Seg) (s : State) : State :=
  { s with ph := ((s.cfg.row g).K0 + (s.cfg.row g).N - 1) % (s.cfg.row g).P, rem := 1 }

/-- The state the Preamble leaves (42_framing.md R152), where the sequencer is not waiting for a token yet. -/
def State.atPayWait (s : State) : State :=
  if s.fs = FS.payWait then s
  else
    { s with fs := FS.payWait, sym := 0b01#2, sidx := 1#1,
             ph := ((s.cfg.row .tapeinB).K0 + (s.cfg.row .tapeinB).N) % (s.cfg.row .tapeinB).P, rem := 0 }

/-- The Entry tone is about to end: the next EMIT issues `TAPEIN`, which starts `SEG_TAPEIN_A` (R157). -/
def State.beforeTapein (s : State) : State :=
  { s with fs := FS.preEntry, sym := 0b00#2, sidx := 0#1 }.atLastSample .entry

/-- `SEG_TAPEIN_A` is about to end: the next EMIT starts `SEG_TAPEIN_B` (40_dds.md R104). -/
def State.beforeTapeinB (s : State) : State :=
  { s with fs := FS.preTapein, sym := 0b01#2, sidx := 0#1 }.atLastSample .tapeinA

/-- Bit 7 of a byte of equal bits `v` is about to end: the next EMIT issues the bit symbol of `v` (R157). -/
def State.beforeBit (v : Bool) (s : State) : State :=
  { s with fs := FS.payBits, sh := if v then 0xFF#8 else 0x00#8, bc := 7#3, sym := bitCode v,
           sidx := 0#1 }.atLastSample (if v then .bit1 else .bit0)

/-- The encoded operation `c` is the one the next step runs. A token goes to the input pins, with the sequencer waiting
for it. SYM and SEG codes never come from a port (30_encoding.md R88): the block is put where its next step forms the
code. `ENTRY` and its segment are formed by RESET alone (41_symbols.md R133). A reserved SEG code is formed nowhere
and changes nothing (log 10). -/
def State.place (s : State) : Code → State
  | .tok w => s.atPayWait.placeEdge (tokenEdge w)
  | .sym w =>
    match Sym.ofCode w with
    | .entry => s.placeEdge rstEdge
    | .tapein => s.beforeTapein.placeEdge acceptEdge
    | .bit0 => (s.beforeBit false).placeEdge acceptEdge
    | .bit1 => (s.beforeBit true).placeEdge acceptEdge
  | .seg w =>
    match Seg.ofCode w with
    | some .entry => s.placeEdge rstEdge
    | some .tapeinA => s.beforeTapein.placeEdge acceptEdge
    | some .tapeinB => s.beforeTapeinB.placeEdge acceptEdge
    | some .bit0 => (s.beforeBit false).placeEdge acceptEdge
    | some .bit1 => (s.beforeBit true).placeEdge acceptEdge
    | none => s

end Sys2Proof.Machine
end

