-- ==== Sys2Proof/Machine/Step.lean ====
section
/-! DEFINITION. The step, one clock edge, and the place of the next instruction. -/

namespace Sys2Proof.Machine

/-- One rising edge of `clk` (70_reset_and_hazards.md R206): the next pins are taken from `edges`. -/
def step (s : State) : Host.Outcome State Fault Refusal := runEdge s.nextEdge s.passEdge

/-- `s` with the operation of an opcode-table word as the one the next step runs (log 10). -/
def State.withFetchWord (s : State) (nbits w : Nat) : State :=
  match codeOfTable nbits w with
  | some c => s.place c
  | none => s

end Sys2Proof.Machine
end

