-- ==== Sys2Proof/Safety.lean ====
section
/-! DEFINITION. The terms claims are stated in: runs, the record of a run, the invariants of 10_state.md R35, the sample
sequences of segments, symbols and frames, and the named property "LUT agrees with SINQ" (00_scope.md R10). -/

namespace Sys2Proof.Machine

/-- `n` clock edges from `s`. -/
def run (n : Nat) (s : State) : Host.Outcome State Fault Refusal := Host.Core.run Sys2Proof.core n s

/-- `s` is reached from reset under some well-formed parameters and some pins (70_reset_and_hazards.md R202, R203). -/
def Reachable (s : State) : Prop :=
  ∃ (c : Cfg) (es : List Edge) (n : Nat), c.wf = true ∧ run n (State.resetWith c es) = .next s

/-- A final state (R211). -/
def State.final (s : State) : Bool := s.fs == FS.done || s.fs == FS.fault

/-- The steps since the last RESET, oldest first: the run of R211. -/
def State.runEvents (s : State) : List Event := (s.trace.takeWhile (fun e => e != Event.reset)).reverse

/-- The sample of an event. -/
def Event.sample? : Event → Option Byte
  | .sample v => some v
  | _ => none

/-- The token of an event. -/
def Event.token? : Event → Option TokWord
  | .token w => some w
  | _ => none

/-- The data byte of a TOK word of kind BYTE. -/
def byteOf? (w : TokWord) : Option Byte := if tokKind w = 0b00#2 then some (tokData w) else none

/-- The samples delivered in the run, in order. -/
def State.runSamples (s : State) : List Byte := s.runEvents.filterMap Event.sample?

/-- The tokens consumed in the run, in order. -/
def State.runTokens (s : State) : List TokWord := s.runEvents.filterMap Event.token?

/-- The data bytes b1, …, bn consumed in the run, in order. -/
def State.runBytes (s : State) : List Byte := s.runTokens.filterMap byteOf?

/-- Every sample the sink holds, those of runs cut short by a RESET among them (R201). -/
def State.delivered (s : State) : List Byte := s.trace.reverse.filterMap Event.sample?

/-- The observation of a run (R211). -/
structure Observation where
  samples : List Byte
  status : Byte
  regs : Regs
  deriving DecidableEq, Repr

/-- The observation of the run that has led to `s` (R211). -/
def State.observation (s : State) : Observation where
  samples := s.runSamples
  status := s.status
  regs := s.regs

/-- The value on offer at sample `i` of segment `g`: `LUT(P, (K0 + i) mod P)` (40_dds.md R105). -/
def segSample (c : Cfg) (g : Seg) (i : Nat) : Byte :=
  (c.lut (c.row g).P (((c.row g).K0 + i) % (c.row g).P)).getD 0

/-- The sample sequence of a segment (R105). -/
def segSamples (c : Cfg) (g : Seg) : List Byte := (List.range (c.row g).N).map (segSample c g)

/-- The samples of a symbol: its segments' sequences in order (41_symbols.md R132). -/
def symSamples (c : Cfg) (y : Sym) : List Byte := (segs y).flatMap (segSamples c)

/-- The samples of a complete frame (42_framing.md R160). -/
def frameSamples (c : Cfg) (bs : List Byte) : List Byte := (frameSyms bs).flatMap (symSamples c)

/-- How many samples a symbol has. -/
def symLen (c : Cfg) (y : Sym) : Nat := ((segs y).map (fun g => (c.row g).N)).sum

/-- How many samples a byte's eight bit symbols have. -/
def byteLen (c : Cfg) (b : Byte) : Nat := ((bitsyms b).map (symLen c)).sum

/-- The number of 1 bits (41_symbols.md R138). -/
def popcount (b : Byte) : Nat := ((List.range 8).map (fun i => (b.getLsbD i).toNat)).sum

/-- Edges of a sink that accepts and a source that offers nothing. -/
def acceptEdges (n : Nat) : List Edge := List.replicate n acceptEdge

/-- The pins of a run with no wait at all: each sample is accepted at once, each token is there when it is asked for
(70_reset_and_hazards.md R210). -/
def frameEdges (c : Cfg) (bs : List Byte) : List Edge :=
  acceptEdges (symLen c .entry + symLen c .tapein) ++
  bs.flatMap (fun b => tokenEdge (tokWord 0b00#2 b) :: acceptEdges (byteLen c b)) ++
  tokenEdge (tokWord 0b01#2 0) :: acceptEdges (byteLen c (checksum bs))

/-- The framing state whose invariants R35 speaks of: the frozen one in `FAULT`. -/
def State.framing (s : State) : BitVec 3 := if s.fs = FS.fault then s.ffs else s.fs

/-- The invariants of R35 (a) to (f) with R21, R23 and the last column of 60_exceptions.md R180; `s.framing` is `fs`,
or the `fs` in which a fault was entered. -/
structure State.Inv (s : State) : Prop where
  /-- R21, R23: a legal framing state; a fault is entered in none of `DONE` and `FAULT`. -/
  framingLegal : s.framing ≠ FS.reserved ∧ s.framing ≠ FS.fault ∧ (s.fs = FS.fault → s.framing ≠ FS.done)
  /-- R35 (a). -/
  activeRange : activeFs s.framing = true →
    ∃ g, s.seg = some g ∧ 1 ≤ s.rem ∧ s.rem ≤ (s.cfg.row g).N ∧ s.ph < (s.cfg.row g).P
  /-- R35 (b). -/
  symEntry : s.framing = FS.preEntry → s.sym = 0b00#2
  /-- R35 (b). -/
  symTapein : s.framing = FS.preTapein → s.sym = 0b01#2
  /-- R35 (b). -/
  symBit : s.framing = FS.payBits ∨ s.framing = FS.trlBits → s.sym = bitCode s.bit
  /-- R35 (c). -/
  sidxOne : s.sidx = 1#1 → s.sym = 0b01#2 ∧ (s.framing = FS.preTapein ∨ s.framing = FS.payWait)
  /-- R35 (d). -/
  remZero : s.framing = FS.payWait ∨ s.framing = FS.done → s.rem = 0
  /-- R35 (e). -/
  shIsCks : s.framing = FS.trlBits ∨ s.framing = FS.done → s.sh = s.cks
  /-- R35 (f), and R23: `ffs` is what reset left. -/
  noFault : s.fs ≠ FS.fault → s.fcode = FC.none ∧ s.ffs = 0b000#3
  /-- R180: the cause of a fault fits the state it was entered in. -/
  faultCause : s.fs = FS.fault →
    (s.fcode = FC.writeError ∧ activeFs s.ffs = true) ∨
    ((s.fcode = FC.readError ∨ s.fcode = FC.illegalToken) ∧ s.ffs = FS.payWait)

/-- `ph` and `rem` fit registers of `PH_W` and `REM_W` bits (00_scope.md R9). -/
def State.widthsOk (s : State) : Prop := s.ph < 2 ^ s.cfg.phW ∧ s.rem < 2 ^ s.cfg.remW

/-- `v = SINQ(P, k)` = trunc(127 · sin(2π·k/P) + 127), in exact real arithmetic (40_dds.md R100; 90_conflicts.md C1). -/
def IsSinq (P k v : Nat) : Prop :=
  (v : ℤ) = ⌊(Config.amp : ℝ) * Real.sin (2 * Real.pi * (k : ℝ) / (P : ℝ)) + (Config.ofs : ℝ)⌋

/-- The named property of R10 and D18: `LUT` agrees with `SINQ` for every period of `CFG`. -/
def LutAgrees (c : Cfg) : Prop :=
  ∀ (g : Seg) (k : Nat), k < (c.row g).P → ∃ v, c.lut (c.row g).P k = some v ∧ IsSinq (c.row g).P k v.toNat

end Sys2Proof.Machine
end

