-- ==== Sys2Proof/Certificates/Slice0/Obligations.lean ====
section
/-! DEFINITION. The statements about CE-DDS, one definition each. The frame of an instruction stands in its effect: the
next state is written as the state before with the fields that change, so every register, the parameters, the pins to
come and the trace that are not named keep their value. The block has no addressable memory (20_memory.md R50). -/

open Sys2Proof Sys2Proof.Machine

/-! ## Encodings -/

/-- Words written out from 30_encoding.md R80, R81, R82 decode to the operations they stand for. -/
def Obligations.DecodeKnownWords : Prop :=
  decode (.sym 0b00#2) = .ok .entry ∧ decode (.sym 0b01#2) = .ok .tapein ∧
  decode (.sym 0b10#2) = .ok .bit0 ∧ decode (.sym 0b11#2) = .ok .bit1 ∧
  decode (.seg 0b000#3) = .ok .segEntry ∧ decode (.seg 0b001#3) = .ok .segTapeinA ∧
  decode (.seg 0b010#3) = .ok .segTapeinB ∧ decode (.seg 0b011#3) = .ok .segBit0 ∧
  decode (.seg 0b100#3) = .ok .segBit1 ∧
  decode (.tok 0b0010100101#10) = .ok (.tokByte 0xA5#8) ∧ decode (.tok 0b0100000000#10) = .ok (.tokEnd 0x00#8) ∧
  decode (.tok 0b1010101011#10) = .ok (.tokError 0xAB#8) ∧ decode (.tok 0b1111111111#10) = .ok (.tokRsvd 0xFF#8)

/-- Decode and encode agree on every operation and every word; the reserved SEG codes, and nothing else, are rejected
(R80 to R82, R88, R89). -/
def Obligations.EncodeDecodeAgree : Prop :=
  (∀ i : Instr, i.wf = true → decode (encode i) = .ok i) ∧
  (∀ (c : Code) (i : Instr), decode c = .ok i → encode i = c) ∧
  (∀ (c : Code) (r : Reject), decode c = .error r ↔ ∃ w : SegWord, c = .seg w ∧ 5 ≤ w.toNat ∧ r = .reservedSeg w)

/-- The configuration descriptor (R86), at every pair of widths: it has P, N, K0 in 2·PH_W + 1 + REM_W bits and reads
back as the row it was made from. -/
def Obligations.DescriptorReadsBack : Prop :=
  ∀ (phW remW : Nat) (r : Row), r.wf phW remW = true →
    r.descriptor phW remW < 2 ^ (phW + 1 + remW + phW) ∧
    Row.ofDescriptor phW remW (r.descriptor phW remW) = r

/-! ## Reset and parameters -/

/-- The reset values of 10_state.md R40, and the first Entry-tone sample, 127, on offer. -/
def Obligations.ResetStateValues : Prop :=
  State.reset.fs = FS.preEntry ∧ State.reset.fcode = FC.none ∧ State.reset.ffs = 0b000#3 ∧
  State.reset.cks = 0xFF#8 ∧ State.reset.sh = 0x00#8 ∧ State.reset.bc = 0#3 ∧ State.reset.sym = 0b00#2 ∧
  State.reset.sidx = 0#1 ∧ State.reset.ph = 0 ∧ State.reset.rem = 46746 ∧
  State.reset.cfg = defaultCfg ∧ State.reset.outValid = true ∧ State.reset.offered = some 127#8

/-- The default table of 10_state.md R30 under the default widths of 00_scope.md R9, well-formed (R31), with the four
sub-tables of R32. -/
def Obligations.DefaultParameters : Prop :=
  defaultCfg.phW = 6 ∧ defaultCfg.remW = 16 ∧
  defaultCfg.row .entry = { P := 57, N := 46746, K0 := 0 } ∧
  defaultCfg.row .tapeinA = { P := 18, N := 9, K0 := 0 } ∧
  defaultCfg.row .tapeinB = { P := 22, N := 11, K0 := 11 } ∧
  defaultCfg.row .bit0 = { P := 22, N := 22, K0 := 0 } ∧
  defaultCfg.row .bit1 = { P := 44, N := 44, K0 := 0 } ∧
  defaultCfg.wf = true ∧
  (defaultCfg.sineOf 57).length + (defaultCfg.sineOf 18).length + (defaultCfg.sineOf 22).length +
    (defaultCfg.sineOf 44).length = 141

/-- RESET (70_reset_and_hazards.md R200): at an edge with `rst` = 1 every register takes its reset value, from any
register contents and whatever the other pins hold; the parameters stay, no sample is delivered and no token is
consumed; the first Entry-tone sample is on offer then, 127 with `ph` = 0 and `rem` = 46746 by default. -/
def Obligations.ResetStepEffect : Prop :=
  ∀ (s : State) (e : Edge) (es : List Edge), s.cfg.wf = true → s.edges = e :: es → e.rst = true →
    ∃ t v, step s = .next t ∧
      t = { fs := FS.preEntry, fcode := FC.none, ffs := 0b000#3, cks := 0xFF#8, sh := 0x00#8, bc := 0#3,
            sym := 0b00#2, sidx := 0#1, ph := (s.cfg.row .entry).K0, rem := (s.cfg.row .entry).N,
            cfg := s.cfg, edges := es, trace := .reset :: s.trace } ∧
      t.outValid = true ∧ t.outData = v ∧ s.cfg.lut (s.cfg.row .entry).P (s.cfg.row .entry).K0 = some v ∧
      (s.cfg = defaultCfg → v = 127#8 ∧ t.ph = 0 ∧ t.rem = 46746)

/-- A configuration that fails any condition of 10_state.md R31 is refused, at every edge, and no other is; the default
one is well-formed. That the refusal comes at every edge, a RESET edge among them, is the model's choice (log 13): R31
does not say at which step a model refuses. -/
def Obligations.IllFormedConfigRefused : Prop :=
  defaultCfg.wf = true ∧ ∀ s : State,
    (s.cfg.wf = false ↔ ∃ g : Seg,
      (s.cfg.row g).P < 1 ∨ 2 ^ s.cfg.phW < (s.cfg.row g).P ∨ (s.cfg.row g).N < 1 ∨
      2 ^ s.cfg.remW - 1 < (s.cfg.row g).N ∨ (s.cfg.row g).P ≤ (s.cfg.row g).K0 ∨
      ∃ k, k < (s.cfg.row g).P ∧ s.cfg.lut (s.cfg.row g).P k = none) ∧
    (s.cfg.wf = false ↔ step s = .refused .illFormedConfig)

/-- A state that holds a reserved internal code is refused where no RESET comes (30_encoding.md R89). That RESET still
works from it is the model's reading of R200, "whatever its state" (log 14), and stands in `ResetStepEffect`. -/
def Obligations.ReservedStatesRefused : Prop :=
  ∀ (s : State) (e : Edge) (es : List Edge), s.cfg.wf = true → s.edges = e :: es → e.rst = false →
    s.fs = 0b111#3 ∨ (s.sidx = 1#1 ∧ s.sym ≠ 0b01#2) → step s = .refused .reservedState

/-! ## The step runs the decoded operation -/

/-- At an edge where the sequencer waits and the source presents a token, the step is the operation that the word on the
pins decodes to (20_memory.md R52), run on the state whose next edge has passed. -/
def Obligations.StepRunsDecodedToken : Prop :=
  ∀ (s : State) (e : Edge) (es : List Edge) (i : Instr),
    s.cfg.wf = true → s.legal = true → s.edges = e :: es → e.rst = false → s.fs = FS.payWait → e.inValid = true →
    decode (.tok (tokWord e.inKind e.inData)) = .ok i → i.wf = true →
    step s = exec i { s with edges := es }

/-- Where the block forms SYM and SEG codes itself (30_encoding.md R88), the step is the operation they decode to, after
what the step does before it: the EMIT that delivers the last sample of a segment runs `TAPEIN`, `SEG_TAPEIN_B` or the
next bit symbol (40_dds.md R104, 42_framing.md R157); a BYTE and an END token run a bit symbol (R153, R154); RESET
leaves what `ENTRY` leaves (R151); a symbol runs its first segment (41_symbols.md R130). -/
def Obligations.StepRunsInternalCodes : Prop :=
  (∀ (s : State) (e : Edge) (es : List Edge) (g : Seg) (v : Byte),
    s.cfg.wf = true → s.Inv → s.outValid = true → s.edges = e :: es →
    e.rst = false → e.outErr = false → e.outReady = true → s.rem = 1 →
    s.seg = some g → s.offered = some v →
    (s.fs = FS.preEntry →
      step s = exec .tapein { s with edges := es, trace := .sample v :: s.trace, fs := FS.preTapein }) ∧
    (s.fs = FS.preTapein → s.sidx = 0#1 →
      step s = exec .segTapeinB { s with edges := es, trace := .sample v :: s.trace, sidx := 1#1 }) ∧
    (s.fs = FS.payBits ∨ s.fs = FS.trlBits → s.bc ≠ 0#3 → ∀ i : Instr,
      decode (.sym (bitSym (s.sh.getLsbD (s.bc.toNat - 1))).code) = .ok i →
      step s = exec i { s with edges := es, trace := .sample v :: s.trace, bc := s.bc - 1#3 })) ∧
  (∀ (s : State) (e : Edge) (es : List Edge), s.cfg.wf = true → s.edges = e :: es → e.rst = true →
    step s = exec .entry { State.resetWith s.cfg es with trace := .reset :: s.trace }) ∧
  (∀ (s : State) (b : Byte) (i : Instr), s.fs = FS.payWait →
    decode (.sym (bitSym (b.getLsbD 7)).code) = .ok i →
    exec (.tokByte b) s = exec i { s with cks := s.cks ^^^ b, sh := b, bc := 7#3, fs := FS.payBits,
                                          trace := .token (tokWord 0b00#2 b) :: s.trace }) ∧
  (∀ (s : State) (x : Byte) (i : Instr), s.fs = FS.payWait →
    decode (.sym (bitSym (s.cks.getLsbD 7)).code) = .ok i →
    exec (.tokEnd x) s = exec i { s with sh := s.cks, bc := 7#3, fs := FS.trlBits,
                                         trace := .token (tokWord 0b01#2 x) :: s.trace }) ∧
  (∀ (s : State) (y : Sym) (i j : Instr), decode (.sym y.code) = .ok i → decode (.seg (firstSeg y).code) = .ok j →
    exec i s = exec j { s with sym := y.code, sidx := 0#1 })

/-! ## The effect of each operation -/

/-- `issue(t)` (41_symbols.md R130) for the four symbols: `sym` and `sidx` are set, the first segment of the expansion is
loaded, no sample is delivered, nothing is raised. -/
def Obligations.SymbolIssueEffect : Prop :=
  ∀ s : State, s.cfg.wf = true →
    exec .entry s = .next { s with sym := 0b00#2, sidx := 0#1, ph := (s.cfg.row .entry).K0, rem := (s.cfg.row .entry).N } ∧
    exec .tapein s = .next
      { s with sym := 0b01#2, sidx := 0#1, ph := (s.cfg.row .tapeinA).K0, rem := (s.cfg.row .tapeinA).N } ∧
    exec .bit0 s = .next { s with sym := 0b10#2, sidx := 0#1, ph := (s.cfg.row .bit0).K0, rem := (s.cfg.row .bit0).N } ∧
    exec .bit1 s = .next { s with sym := 0b11#2, sidx := 0#1, ph := (s.cfg.row .bit1).K0, rem := (s.cfg.row .bit1).N }

/-- `seg_start(s)` (40_dds.md R103) for the five segments: `ph` and `rem` are loaded and nothing else changes; and where
the segment is the current one and `fs` is active, its first sample `LUT(P, K0)` is on offer. -/
def Obligations.SegmentStartEffect : Prop :=
  ∀ (s : State) (g : Seg) (i : Instr), s.cfg.wf = true → decode (.seg g.code) = .ok i →
    ∃ t, exec i s = .next t ∧ t = { s with ph := (s.cfg.row g).K0, rem := (s.cfg.row g).N } ∧
      (s.seg = some g → activeFs s.fs = true →
        ∃ v, s.cfg.lut (s.cfg.row g).P (s.cfg.row g).K0 = some v ∧ t.offered = some v ∧ t.outData = v)

/-- `TOK.BYTE b` (42_framing.md R153): its word is 0x000 | b, and in `PAY_WAIT` it runs. Elsewhere the rule does not
enable it; that `exec` then answers the same state is the model's choice (log 7). -/
def Obligations.TokByteEffect : Prop :=
  ∀ (s : State) (b : Byte), s.cfg.wf = true →
    (encode (.tokByte b)).toNat = b.toNat ∧
    (s.fs = FS.payWait → exec (.tokByte b) s = .next
      { s with cks := s.cks ^^^ b, sh := b, bc := 7#3, fs := FS.payBits,
               sym := if b.getLsbD 7 then 0b11#2 else 0b10#2, sidx := 0#1,
               ph := (s.cfg.row (if b.getLsbD 7 then .bit1 else .bit0)).K0,
               rem := (s.cfg.row (if b.getLsbD 7 then .bit1 else .bit0)).N,
               trace := .token (tokWord 0b00#2 b) :: s.trace }) ∧
    (s.fs ≠ FS.payWait → exec (.tokByte b) s = .next s)

/-- `TOK.END` (R154): its canonical word is 0x100 and its data bits are ignored; in `PAY_WAIT` it runs and does not write
`cks`. Elsewhere the rule does not enable it; that `exec` then answers the same state is the model's choice (log 7). -/
def Obligations.TokEndEffect : Prop :=
  ∀ (s : State) (x : Byte), s.cfg.wf = true →
    (encode (.tokEnd 0)).toNat = 0x100 ∧
    (s.fs = FS.payWait → exec (.tokEnd x) s = .next
      { s with sh := s.cks, bc := 7#3, fs := FS.trlBits,
               sym := if s.cks.getLsbD 7 then 0b11#2 else 0b10#2, sidx := 0#1,
               ph := (s.cfg.row (if s.cks.getLsbD 7 then .bit1 else .bit0)).K0,
               rem := (s.cfg.row (if s.cks.getLsbD 7 then .bit1 else .bit0)).N,
               trace := .token (tokWord 0b01#2 x) :: s.trace }) ∧
    (s.fs ≠ FS.payWait → exec (.tokEnd x) s = .next s)

/-- `TOK.ERROR` (R155): its word is 0x200; in `PAY_WAIT` the token is consumed and the fault `READ_ERROR` is entered, with
`ffs` = `PAY_WAIT` and every other register kept, STATUS 0x4E and neither port ready, so that no trailer follows.
Elsewhere the rule does not enable it; that `exec` then answers the same state is the model's choice (log 7). -/
def Obligations.TokErrorEffect : Prop :=
  ∀ (s : State) (x : Byte),
    (encode (.tokError 0)).toNat = 0x200 ∧
    (s.fs = FS.payWait → ∃ t, exec (.tokError x) s = .next t ∧
      t = { s with ffs := FS.payWait, fs := FS.fault, fcode := FC.readError,
                   trace := .token (tokWord 0b10#2 x) :: s.trace } ∧
      t.status = 0x4E#8 ∧ t.outValid = false ∧ t.inReady = false) ∧
    (s.fs ≠ FS.payWait → exec (.tokError x) s = .next s)

/-- `TOK.RSVD` (R156): in `PAY_WAIT` the token is consumed and the fault `ILLEGAL_TOKEN` is entered, with `ffs` =
`PAY_WAIT` and every other register kept, STATUS 0x5E and neither port ready. Elsewhere the rule does not enable it;
that `exec` then answers the same state is the model's choice (log 7). -/
def Obligations.TokRsvdEffect : Prop :=
  ∀ (s : State) (x : Byte),
    (s.fs = FS.payWait → ∃ t, exec (.tokRsvd x) s = .next t ∧
      t = { s with ffs := FS.payWait, fs := FS.fault, fcode := FC.illegalToken,
                   trace := .token (tokWord 0b11#2 x) :: s.trace } ∧
      t.status = 0x5E#8 ∧ t.outValid = false ∧ t.inReady = false) ∧
    (s.fs ≠ FS.payWait → exec (.tokRsvd x) s = .next s)

/-- EMIT (40_dds.md R104) with `symbol_done` (42_framing.md R157), in every state that keeps the invariants: the sample on
offer `LUT(P, ph)` is delivered; then the segment goes on, or `TAPEIN` advances, or the symbol is complete. -/
def Obligations.EmitStepEffect : Prop :=
  ∀ (s : State) (e : Edge) (es : List Edge),
    s.cfg.wf = true → s.Inv → s.outValid = true → s.edges = e :: es →
    e.rst = false → e.outErr = false → e.outReady = true →
    ∃ (g : Seg) (v : Byte), s.seg = some g ∧ s.cfg.lut (s.cfg.row g).P s.ph = some v ∧
      (1 < s.rem → step s = .next
        { s with ph := (s.ph + 1) % (s.cfg.row g).P, rem := s.rem - 1, edges := es, trace := .sample v :: s.trace }) ∧
      (s.rem = 1 →
        (s.fs = FS.preEntry → step s = .next
          { s with fs := FS.preTapein, sym := 0b01#2, sidx := 0#1, ph := (s.cfg.row .tapeinA).K0,
                   rem := (s.cfg.row .tapeinA).N, edges := es, trace := .sample v :: s.trace }) ∧
        (s.fs = FS.preTapein → s.sidx = 0#1 → step s = .next
          { s with sidx := 1#1, ph := (s.cfg.row .tapeinB).K0, rem := (s.cfg.row .tapeinB).N, edges := es,
                   trace := .sample v :: s.trace }) ∧
        (s.fs = FS.preTapein → s.sidx = 1#1 → step s = .next
          { s with fs := FS.payWait, ph := (s.ph + 1) % (s.cfg.row g).P, rem := 0, edges := es,
                   trace := .sample v :: s.trace }) ∧
        (s.fs = FS.payBits ∨ s.fs = FS.trlBits → s.bc ≠ 0#3 → step s = .next
          { s with bc := s.bc - 1#3, sym := if s.sh.getLsbD (s.bc.toNat - 1) then 0b11#2 else 0b10#2, sidx := 0#1,
                   ph := (s.cfg.row (if s.sh.getLsbD (s.bc.toNat - 1) then .bit1 else .bit0)).K0,
                   rem := (s.cfg.row (if s.sh.getLsbD (s.bc.toNat - 1) then .bit1 else .bit0)).N, edges := es,
                   trace := .sample v :: s.trace }) ∧
        (s.fs = FS.payBits → s.bc = 0#3 → step s = .next
          { s with fs := FS.payWait, ph := (s.ph + 1) % (s.cfg.row g).P, rem := 0, edges := es,
                   trace := .sample v :: s.trace }) ∧
        (s.fs = FS.trlBits → s.bc = 0#3 → step s = .next
          { s with fs := FS.done, ph := (s.ph + 1) % (s.cfg.row g).P, rem := 0, edges := es,
                   trace := .sample v :: s.trace }))

/-- WFAIL (60_exceptions.md R182) with fault entry (R183): at an edge with a sample on offer and `out_err` = 1, whatever
`out_ready` is, the fault `WRITE_ERROR` is entered, no sample is delivered and every other register is kept. -/
def Obligations.WriteFailureEffect : Prop :=
  ∀ (s : State) (e : Edge) (es : List Edge),
    s.cfg.wf = true → s.legal = true → s.outValid = true → s.edges = e :: es → e.rst = false → e.outErr = true →
    step s = .next { s with ffs := s.fs, fs := FS.fault, fcode := FC.writeError, edges := es,
                            trace := .wfail :: s.trace }

/-- EMIT where the ROM has no entry for the sample on offer (20_memory.md R50 (d)) stops by name. That this is a fault is
the model's choice (log 15); no state with the invariants comes there (`InvariantStatesNeverStop`). -/
def Obligations.MissingRomEntryFaults : Prop :=
  ∀ (s : State) (e : Edge) (es : List Edge) (g : Seg),
    s.cfg.wf = true → s.legal = true → s.outValid = true → s.edges = e :: es →
    e.rst = false → e.outErr = false → e.outReady = true →
    s.seg = some g → (s.cfg.row g).P ≤ s.ph → step s = .fault (.noLutEntry (s.cfg.row g).P s.ph)

/-! ## One edge -/

/-- The priority of the events at one edge (60_exceptions.md R186, 70_reset_and_hazards.md R206): RESET, WFAIL, EMIT,
TOKEN, and hold, in which nothing but the edge passes; EMIT or WFAIL and TOKEN can never meet. -/
def Obligations.EdgePriority : Prop :=
  (∀ s : State, ¬(s.outValid = true ∧ s.inReady = true)) ∧
  ∀ (s : State) (e : Edge) (es : List Edge), s.cfg.wf = true → s.legal = true → s.edges = e :: es →
    (e.rst = true → step s = .next (resetStep { s with edges := es })) ∧
    (e.rst = false →
      (s.outValid = true → e.outErr = true → step s = .next (wfail { s with edges := es })) ∧
      (s.outValid = true → e.outErr = false → e.outReady = true → step s = emit { s with edges := es }) ∧
      (s.outValid = true → e.outErr = false → e.outReady = false → step s = .next { s with edges := es }) ∧
      (s.inReady = true → e.inValid = true →
        step s = exec (decodeTok (tokWord e.inKind e.inData)) { s with edges := es }) ∧
      (s.inReady = true → e.inValid = false → step s = .next { s with edges := es }) ∧
      (s.outValid = false → s.inReady = false → step s = .next { s with edges := es }))

/-- The pins the block ignores do not matter: the output-side pins where no sample is on offer (20_memory.md R51),
`out_ready` beside `out_err`, `in_kind` and `in_data` where no token is consumed (R209), all of them beside `rst`. -/
def Obligations.IgnoredPinsDoNotMatter : Prop :=
  ∀ (s : State) (e f : Edge) (es : List Edge),
    e.rst = f.rst →
    (e.rst = false → s.outValid = true → e.outErr = f.outErr ∧ (e.outErr = false → e.outReady = f.outReady)) →
    (e.rst = false → s.inReady = true →
      e.inValid = f.inValid ∧ (e.inValid = true → e.inKind = f.inKind ∧ e.inData = f.inData)) →
    step { s with edges := e :: es } = step { s with edges := f :: es }

/-- In `DONE` and in `FAULT` only RESET does anything (42_framing.md R162, 60_exceptions.md R184, R185). -/
def Obligations.FinalStatesHold : Prop :=
  ∀ (s : State) (e : Edge) (es : List Edge), s.cfg.wf = true → s.legal = true → s.edges = e :: es →
    s.final = true →
    (e.rst = false → step s = .next { s with edges := es }) ∧
    (∀ t, step s = .next t → t.fs ≠ s.fs → e.rst = true ∧ t.fs = FS.preEntry)

/-- Every step that answers a next state lets one edge pass, keeps the parameters (10_state.md R42), and is at most one
transaction (00_scope.md R13): it is a hold, which changes nothing else, or it records exactly one event. -/
def Obligations.StepIsOneTransaction : Prop :=
  ∀ s t : State, step s = .next t →
    t.cfg = s.cfg ∧ t.edges = s.edges.tail ∧
    (t = { s with edges := s.edges.tail } ∨ ∃ ev, t.trace = ev :: s.trace)

/-- What crosses the ports (20_memory.md R51, R52): a sample only where `out_valid` = 1, and it is the one on
`out_data`; a token only where `in_ready` = 1, and it is the one on the pins; neither with `rst` = 1. -/
def Obligations.PortTransactions : Prop :=
  ∀ (s t : State) (e : Edge) (es : List Edge), s.edges = e :: es → step s = .next t →
    (∀ v, t.trace = .sample v :: s.trace →
      e.rst = false ∧ s.outValid = true ∧ e.outReady = true ∧ e.outErr = false ∧ s.outData = v) ∧
    (∀ w, t.trace = .token w :: s.trace →
      e.rst = false ∧ s.inReady = true ∧ e.inValid = true ∧ w = tokWord e.inKind e.inData)

/-! ## Outputs -/

/-- The STATUS word is `(ffs << 5) | (fcode << 3) | fs`, with the rule's four examples (30_encoding.md R84). -/
def Obligations.StatusLayout : Prop :=
  (∀ s : State,
    s.status.toNat = s.ffs.toNat * 2 ^ 5 + s.fcode.toNat * 2 ^ 3 + s.fs.toNat ∧
    s.status.extractLsb' 0 3 = s.fs ∧ s.status.extractLsb' 3 2 = s.fcode ∧ s.status.extractLsb' 5 3 = s.ffs) ∧
  State.reset.status = 0x00#8 ∧
  { State.reset with fs := FS.done }.status = 0x05#8 ∧
  { State.reset with fs := FS.fault, fcode := FC.readError, ffs := FS.payWait }.status = 0x4E#8 ∧
  { State.reset with fs := FS.fault, fcode := FC.writeError, ffs := FS.preEntry }.status = 0x16#8

/-- The outputs are functions of the registers alone (70_reset_and_hazards.md R206), under given parameters. -/
def Obligations.OutputsAreRegisterFunctions : Prop :=
  ∀ s t : State, s.regs = t.regs → s.cfg = t.cfg →
    s.outValid = t.outValid ∧ s.outData = t.outData ∧ s.inReady = t.inReady ∧ s.status = t.status

/-- Where `out_valid` = 1, `out_data` is `LUT(CFG(seg).P, ph)` and the ROM has it (20_memory.md R51, 10_state.md R35
(a)). -/
def Obligations.SampleOnOfferExists : Prop :=
  ∀ s : State, s.cfg.wf = true → s.Inv → s.outValid = true →
    ∃ g v, s.seg = some g ∧ s.cfg.lut (s.cfg.row g).P s.ph = some v ∧ s.outData = v

/-! ## Invariants and whole-machine rules -/

/-- The invariants hold right after reset, under every well-formed configuration and whatever is to come. -/
def Obligations.ResetKeepsInvariants : Prop :=
  ∀ (c : Cfg) (es : List Edge), c.wf = true → (State.resetWith c es).Inv

/-- Every step keeps the invariants of 10_state.md R35 (a) to (f), with R21, R23 and R180, from every state that has
them. -/
def Obligations.StepKeepsInvariants : Prop :=
  ∀ s t : State, s.Inv → step s = .next t → t.Inv

/-- A state with the invariants, under a well-formed configuration, never stops: every edge answers a next state. -/
def Obligations.InvariantStatesNeverStop : Prop :=
  ∀ s : State, s.cfg.wf = true → s.Inv → ∃ t, step s = .next t

/-- `ph` and `rem` stay within `PH_W` and `REM_W` bits (00_scope.md R9), in every state. -/
def Obligations.StepKeepsRegisterWidths : Prop :=
  ∀ s t : State, s.widthsOk → step s = .next t → t.widthsOk

/-- `bc` never wraps (10_state.md R26): a step leaves it, loads 7 for a new byte, takes one off where it is not 0, or
resets it. -/
def Obligations.BitCounterNeverWraps : Prop :=
  ∀ s t : State, step s = .next t →
    t.bc = s.bc ∨ (s.fs = FS.payWait ∧ t.bc = 7#3) ∨ t.bc.toNat + 1 = s.bc.toNat ∨
    (t.trace = .reset :: s.trace ∧ t.bc = 0#3)

/-- Only a BYTE token and RESET change `cks` (10_state.md R24, R41). -/
def Obligations.OnlyBytesAndResetChangeChecksum : Prop :=
  ∀ s t : State, step s = .next t →
    t.cks = s.cks ∨
    (∃ b, s.fs = FS.payWait ∧ t.trace = .token (tokWord 0b00#2 b) :: s.trace ∧ t.cks = s.cks ^^^ b) ∨
    (t.trace = .reset :: s.trace ∧ t.cks = 0xFF#8)

/-- Only fault entry and RESET write `fcode` and `ffs` (10_state.md R22, R23): fault entry, never in `FAULT`, captures the
framing state and a cause. -/
def Obligations.FaultRegisterWriters : Prop :=
  ∀ s t : State, step s = .next t →
    (t.fcode = s.fcode ∧ t.ffs = s.ffs) ∨
    (s.fs ≠ FS.fault ∧ t.fs = FS.fault ∧ t.ffs = s.fs ∧ t.fcode ≠ FC.none) ∨
    (t.trace = .reset :: s.trace ∧ t.fcode = FC.none ∧ t.ffs = 0b000#3)

/-- The checksum barrier (20_memory.md R62): only the END token starts the trailer, from `PAY_WAIT`, with the byte to
send equal to the checksum. -/
def Obligations.TrailerBarrier : Prop :=
  ∀ s t : State, step s = .next t → t.fs = FS.trlBits → s.fs ≠ FS.trlBits →
    s.fs = FS.payWait ∧ t.sh = s.cks ∧ t.cks = s.cks ∧
    ∃ x, t.trace = .token (tokWord 0b01#2 x) :: s.trace

/-- The checksum law (42_framing.md R158): `cks` = 0xFF ^ b1 ^ … ^ bn holds after reset and every step keeps it, n = 0
among them; and it does not depend on the order of the bytes. -/
def Obligations.ChecksumLaw : Prop :=
  (∀ (c : Cfg) (es : List Edge), (State.resetWith c es).cks = checksum (State.resetWith c es).runBytes) ∧
  (∀ s t : State, s.cks = checksum s.runBytes → step s = .next t → t.cks = checksum t.runBytes) ∧
  checksum [] = 0xFF#8 ∧
  (∀ (b : Byte) (bs : List Byte), checksum (bs ++ [b]) = checksum bs ^^^ b) ∧
  (∀ bs ds : List Byte, bs.Perm ds → checksum bs = checksum ds)

/-! ## Segments, symbols, frames -/

/-- The sample sequence of a segment (40_dds.md R105): the SEG operation, then N edges at which the sink accepts, deliver
`LUT(P, (K0 + i) mod P)` for i = 0 … N − 1 in order, and nothing else happens between them, whatever the source offers;
before edge m < N, `ph` is (K0 + m) mod P (10_state.md R28) and `rem` is N − m. -/
def Obligations.SegmentDeliversSequence : Prop :=
  ∀ (s : State) (g : Seg) (i : Instr) (acc es : List Edge),
    s.cfg.wf = true → s.legal = true → activeFs s.fs = true → s.seg = some g → decode (.seg g.code) = .ok i →
    acc.length = (s.cfg.row g).N → (∀ e ∈ acc, e.rst = false ∧ e.outErr = false ∧ e.outReady = true) →
    s.edges = acc ++ es →
    ∃ t, exec i s = .next t ∧
      (∀ m, m < (s.cfg.row g).N → ∃ u, run m t = .next u ∧
        u.ph = ((s.cfg.row g).K0 + m) % (s.cfg.row g).P ∧ u.rem = (s.cfg.row g).N - m ∧ u.seg = some g) ∧
      ∃ u, run (s.cfg.row g).N t = .next u ∧ u.edges = es ∧
        u.trace = ((segSamples s.cfg g).map Event.sample).reverse ++ s.trace

/-- Symbol execution (41_symbols.md R132): the SYM operation, then as many edges at which the sink accepts as the symbol
has samples, deliver its segments' sequences one after the other with nothing between, whatever the source offers. -/
def Obligations.SymbolDeliversSegments : Prop :=
  ∀ (s : State) (y : Sym) (i : Instr) (acc es : List Edge),
    s.cfg.wf = true → activeFs s.fs = true → decode (.sym y.code) = .ok i →
    acc.length = symLen s.cfg y → (∀ e ∈ acc, e.rst = false ∧ e.outErr = false ∧ e.outReady = true) →
    s.edges = acc ++ es →
    ∃ t u, exec i s = .next t ∧ run (symLen s.cfg y) t = .next u ∧ u.edges = es ∧
      (symSamples s.cfg y).length = symLen s.cfg y ∧
      u.trace = ((symSamples s.cfg y).map Event.sample).reverse ++ s.trace

/-- Frame composition (42_framing.md R160) where nothing waits: for every well-formed configuration and every list of
bytes, the run reaches `DONE`, and the delivered samples are those of `FRAME b1, …, bn`. -/
def Obligations.FrameRunReachesDone : Prop :=
  ∀ (c : Cfg) (bs : List Byte), c.wf = true →
    ∃ t, run (frameEdges c bs).length (State.resetWith c (frameEdges c bs)) = .next t ∧
      t.fs = FS.done ∧ t.status = 0x05#8 ∧ t.cks = checksum bs ∧ t.sh = checksum bs ∧ t.bc = 0#3 ∧ t.rem = 0 ∧
      t.edges = [] ∧ t.runBytes = bs ∧ t.runSamples = frameSamples c bs

/-- Whatever the source and the sink do and however long they wait, the samples delivered since the last reset are a
first part of the frame of the bytes consumed since then (42_framing.md R160, 20_memory.md R60). -/
def Obligations.DeliveredIsFramePart : Prop :=
  ∀ s : State, Reachable s → s.runSamples <+: frameSamples s.cfg s.runBytes

/-- A reachable state in `DONE` has delivered the whole frame of the bytes it consumed, and `END` was the last token it
read (42_framing.md R160, R162). -/
def Obligations.DoneDeliveredWholeFrame : Prop :=
  ∀ s : State, Reachable s → s.fs = FS.done →
    s.runSamples = frameSamples s.cfg s.runBytes ∧
    ∃ x, s.runTokens = s.runBytes.map (tokWord 0b00#2) ++ [tokWord 0b01#2 x]

/-- Determinism (20_memory.md R66): the delivered sequence depends on the tokens consumed, the parameters and the point at
which the run is cut, not on the timing of the pins. Of two runs under the same parameters that have consumed the same
tokens, one has delivered a first part of what the other has, and the same where both are in `DONE`. -/
def Obligations.SameTokensSameSamples : Prop :=
  ∀ s t : State, Reachable s → Reachable t → s.cfg = t.cfg → s.runTokens = t.runTokens →
    (s.runSamples <+: t.runSamples ∨ t.runSamples <+: s.runSamples) ∧
    (s.fs = FS.done → t.fs = FS.done → s.runSamples = t.runSamples)

/-- A reset during a run (70_reset_and_hazards.md R201): from any registers, what was delivered stays delivered, and a
whole new frame follows it with nothing between. -/
def Obligations.ResetStartsFreshFrame : Prop :=
  ∀ (s : State) (bs : List Byte), s.cfg.wf = true → s.edges = rstEdge :: frameEdges s.cfg bs →
    ∃ t, run (1 + (frameEdges s.cfg bs).length) s = .next t ∧ t.fs = FS.done ∧
      t.delivered = s.delivered ++ frameSamples s.cfg bs ∧ t.runSamples = frameSamples s.cfg bs

/-- The edges a frame takes (70_reset_and_hazards.md R210), for every well-formed configuration. A run from the reset
registers that is in `DONE`, whatever the pins were (a RESET on the way only adds edges), has delivered count samples and
consumed n + 1 tokens since its last RESET, and took at least count + n + 1 edges. A run in which nothing waits attains
this minimum, with no RESET in it. -/
def Obligations.FrameEdgeCount : Prop :=
  ∀ c : Cfg, c.wf = true →
    (∀ (es : List Edge) (k : Nat) (t : State), run k (State.resetWith c es) = .next t → t.fs = FS.done →
      t.runSamples.length = (frameSamples c t.runBytes).length ∧
      t.runTokens.length = t.runBytes.length + 1 ∧
      (frameSamples c t.runBytes).length + t.runBytes.length + 1 ≤ k) ∧
    ∀ bs : List Byte, ∃ t,
      run ((frameSamples c bs).length + bs.length + 1) (State.resetWith c (frameEdges c bs)) = .next t ∧
      t.fs = FS.done ∧ t.runBytes = bs ∧ Event.reset ∉ t.trace

/-- Counts and sums per symbol and per byte under the default parameters (41_symbols.md R138). -/
def Obligations.UnitCountsAndSums : Prop :=
  (symSamples defaultCfg .entry).length = 46746 ∧
  ((symSamples defaultCfg .entry).map BitVec.toNat).sum = 5913983 ∧
  (symSamples defaultCfg .tapein).length = 20 ∧ ((symSamples defaultCfg .tapein).map BitVec.toNat).sum = 2370 ∧
  (symSamples defaultCfg .bit0).length = 22 ∧ ((symSamples defaultCfg .bit0).map BitVec.toNat).sum = 2784 ∧
  (symSamples defaultCfg .bit1).length = 44 ∧ ((symSamples defaultCfg .bit1).map BitVec.toNat).sum = 5568 ∧
  ∀ b : Byte,
    ((bitsyms b).flatMap (symSamples defaultCfg)).length = 176 + 22 * popcount b ∧
    (((bitsyms b).flatMap (symSamples defaultCfg)).map BitVec.toNat).sum = 22272 + 2784 * popcount b

/-- Sample count and sum of a complete frame under the default parameters (42_framing.md R161), and the worked example
count(0x00) = 47294. -/
def Obligations.FrameCountAndSum : Prop :=
  (∀ bs : List Byte,
    (frameSamples defaultCfg bs).length =
      46746 + 20 + (bs.map (fun b => 176 + 22 * popcount b)).sum + 176 + 22 * popcount (checksum bs) ∧
    ((frameSamples defaultCfg bs).map BitVec.toNat).sum =
      5913983 + 2370 + (bs.map (fun b => 22272 + 2784 * popcount b)).sum + 22272 +
        2784 * popcount (checksum bs)) ∧
  (frameSamples defaultCfg [0x00#8]).length = 47294

/-- Decodability (41_symbols.md R140): the lengths of a byte's eight bit segments determine the byte, and a whole
delivered frame determines its bytes, under the default parameters. -/
def Obligations.FrameIsDecodable : Prop :=
  (∀ b d : Byte, (bitsyms b).map (symLen defaultCfg) = (bitsyms d).map (symLen defaultCfg) → b = d) ∧
  (∀ bs ds : List Byte, frameSamples defaultCfg bs = frameSamples defaultCfg ds → bs = ds)

/-! ## The sine table -/

/-- The sample range under the default parameters (40_dds.md R107): 255 is never delivered, 254 only from (44, 11), 0 only
from (44, 33), (57, 42) and (57, 43); the largest Entry-tone value is 253, the smallest of the bit-0 tone is 1. -/
def Obligations.DefaultSampleRange : Prop :=
  (∀ (s t : State) (v : Byte), s.cfg = defaultCfg → step s = .next t → t.trace = .sample v :: s.trace →
    v.toNat ≤ 254) ∧
  (∀ P k, defaultCfg.lut P k = some 254#8 ↔ P = 44 ∧ k = 11) ∧
  (∀ P k, defaultCfg.lut P k = some 0#8 ↔ (P = 44 ∧ k = 33) ∨ (P = 57 ∧ (k = 42 ∨ k = 43))) ∧
  ((∃ k, defaultCfg.lut 57 k = some 253#8) ∧ ∀ k v, defaultCfg.lut 57 k = some v → v.toNat ≤ 253) ∧
  ((∃ k, defaultCfg.lut 22 k = some 1#8) ∧ ∀ k v, defaultCfg.lut 22 k = some v → 1 ≤ v.toNat)

/-- `SINQ` in exact real arithmetic (40_dds.md R100): for P ≥ 1 and k < P it has exactly one value, in [0, 254], so a
configuration whose `LUT` agrees with it delivers no other samples. -/
def Obligations.SinqHasOneValueInRange : Prop :=
  (∀ P k : Nat, 1 ≤ P → k < P → ∃ v, v ≤ 254 ∧ IsSinq P k v ∧ ∀ w, IsSinq P k w → w = v) ∧
  (∀ (s t : State) (v : Byte), LutAgrees s.cfg → step s = .next t → t.trace = .sample v :: s.trace →
    v.toNat ≤ 254)

/-- The default `LUT` agrees with `SINQ` (40_dds.md R101): each of the 141 entries is trunc(127 · sin(2π·k/P) + 127) of
the real sine. -/
def Obligations.DefaultLutAgreesWithSinq : Prop :=
  LutAgrees defaultCfg
end

