-- ==== Sys2Proof/Laws/Codes.lean ====
section
/-! SUPPORT. The framing and fault codes differ from one another, in the form simp uses. -/

namespace Sys2Proof.Machine

@[simp] theorem FS.preEntry_ne_preTapein : (FS.preEntry = FS.preTapein) = False := by decide
@[simp] theorem FS.preEntry_ne_payWait : (FS.preEntry = FS.payWait) = False := by decide
@[simp] theorem FS.preEntry_ne_payBits : (FS.preEntry = FS.payBits) = False := by decide
@[simp] theorem FS.preEntry_ne_trlBits : (FS.preEntry = FS.trlBits) = False := by decide
@[simp] theorem FS.preEntry_ne_done : (FS.preEntry = FS.done) = False := by decide
@[simp] theorem FS.preEntry_ne_fault : (FS.preEntry = FS.fault) = False := by decide
@[simp] theorem FS.preEntry_ne_reserved : (FS.preEntry = FS.reserved) = False := by decide
@[simp] theorem FS.preTapein_ne_preEntry : (FS.preTapein = FS.preEntry) = False := by decide
@[simp] theorem FS.preTapein_ne_payWait : (FS.preTapein = FS.payWait) = False := by decide
@[simp] theorem FS.preTapein_ne_payBits : (FS.preTapein = FS.payBits) = False := by decide
@[simp] theorem FS.preTapein_ne_trlBits : (FS.preTapein = FS.trlBits) = False := by decide
@[simp] theorem FS.preTapein_ne_done : (FS.preTapein = FS.done) = False := by decide
@[simp] theorem FS.preTapein_ne_fault : (FS.preTapein = FS.fault) = False := by decide
@[simp] theorem FS.preTapein_ne_reserved : (FS.preTapein = FS.reserved) = False := by decide
@[simp] theorem FS.payWait_ne_preEntry : (FS.payWait = FS.preEntry) = False := by decide
@[simp] theorem FS.payWait_ne_preTapein : (FS.payWait = FS.preTapein) = False := by decide
@[simp] theorem FS.payWait_ne_payBits : (FS.payWait = FS.payBits) = False := by decide
@[simp] theorem FS.payWait_ne_trlBits : (FS.payWait = FS.trlBits) = False := by decide
@[simp] theorem FS.payWait_ne_done : (FS.payWait = FS.done) = False := by decide
@[simp] theorem FS.payWait_ne_fault : (FS.payWait = FS.fault) = False := by decide
@[simp] theorem FS.payWait_ne_reserved : (FS.payWait = FS.reserved) = False := by decide
@[simp] theorem FS.payBits_ne_preEntry : (FS.payBits = FS.preEntry) = False := by decide
@[simp] theorem FS.payBits_ne_preTapein : (FS.payBits = FS.preTapein) = False := by decide
@[simp] theorem FS.payBits_ne_payWait : (FS.payBits = FS.payWait) = False := by decide
@[simp] theorem FS.payBits_ne_trlBits : (FS.payBits = FS.trlBits) = False := by decide
@[simp] theorem FS.payBits_ne_done : (FS.payBits = FS.done) = False := by decide
@[simp] theorem FS.payBits_ne_fault : (FS.payBits = FS.fault) = False := by decide
@[simp] theorem FS.payBits_ne_reserved : (FS.payBits = FS.reserved) = False := by decide
@[simp] theorem FS.trlBits_ne_preEntry : (FS.trlBits = FS.preEntry) = False := by decide
@[simp] theorem FS.trlBits_ne_preTapein : (FS.trlBits = FS.preTapein) = False := by decide
@[simp] theorem FS.trlBits_ne_payWait : (FS.trlBits = FS.payWait) = False := by decide
@[simp] theorem FS.trlBits_ne_payBits : (FS.trlBits = FS.payBits) = False := by decide
@[simp] theorem FS.trlBits_ne_done : (FS.trlBits = FS.done) = False := by decide
@[simp] theorem FS.trlBits_ne_fault : (FS.trlBits = FS.fault) = False := by decide
@[simp] theorem FS.trlBits_ne_reserved : (FS.trlBits = FS.reserved) = False := by decide
@[simp] theorem FS.done_ne_preEntry : (FS.done = FS.preEntry) = False := by decide
@[simp] theorem FS.done_ne_preTapein : (FS.done = FS.preTapein) = False := by decide
@[simp] theorem FS.done_ne_payWait : (FS.done = FS.payWait) = False := by decide
@[simp] theorem FS.done_ne_payBits : (FS.done = FS.payBits) = False := by decide
@[simp] theorem FS.done_ne_trlBits : (FS.done = FS.trlBits) = False := by decide
@[simp] theorem FS.done_ne_fault : (FS.done = FS.fault) = False := by decide
@[simp] theorem FS.done_ne_reserved : (FS.done = FS.reserved) = False := by decide
@[simp] theorem FS.fault_ne_preEntry : (FS.fault = FS.preEntry) = False := by decide
@[simp] theorem FS.fault_ne_preTapein : (FS.fault = FS.preTapein) = False := by decide
@[simp] theorem FS.fault_ne_payWait : (FS.fault = FS.payWait) = False := by decide
@[simp] theorem FS.fault_ne_payBits : (FS.fault = FS.payBits) = False := by decide
@[simp] theorem FS.fault_ne_trlBits : (FS.fault = FS.trlBits) = False := by decide
@[simp] theorem FS.fault_ne_done : (FS.fault = FS.done) = False := by decide
@[simp] theorem FS.fault_ne_reserved : (FS.fault = FS.reserved) = False := by decide
@[simp] theorem FS.reserved_ne_preEntry : (FS.reserved = FS.preEntry) = False := by decide
@[simp] theorem FS.reserved_ne_preTapein : (FS.reserved = FS.preTapein) = False := by decide
@[simp] theorem FS.reserved_ne_payWait : (FS.reserved = FS.payWait) = False := by decide
@[simp] theorem FS.reserved_ne_payBits : (FS.reserved = FS.payBits) = False := by decide
@[simp] theorem FS.reserved_ne_trlBits : (FS.reserved = FS.trlBits) = False := by decide
@[simp] theorem FS.reserved_ne_done : (FS.reserved = FS.done) = False := by decide
@[simp] theorem FS.reserved_ne_fault : (FS.reserved = FS.fault) = False := by decide

@[simp] theorem FC.none_ne_readError : (FC.none = FC.readError) = False := by decide
@[simp] theorem FC.none_ne_writeError : (FC.none = FC.writeError) = False := by decide
@[simp] theorem FC.none_ne_illegalToken : (FC.none = FC.illegalToken) = False := by decide
@[simp] theorem FC.readError_ne_none : (FC.readError = FC.none) = False := by decide
@[simp] theorem FC.readError_ne_writeError : (FC.readError = FC.writeError) = False := by decide
@[simp] theorem FC.readError_ne_illegalToken : (FC.readError = FC.illegalToken) = False := by decide
@[simp] theorem FC.writeError_ne_none : (FC.writeError = FC.none) = False := by decide
@[simp] theorem FC.writeError_ne_readError : (FC.writeError = FC.readError) = False := by decide
@[simp] theorem FC.writeError_ne_illegalToken : (FC.writeError = FC.illegalToken) = False := by decide
@[simp] theorem FC.illegalToken_ne_none : (FC.illegalToken = FC.none) = False := by decide
@[simp] theorem FC.illegalToken_ne_readError : (FC.illegalToken = FC.readError) = False := by decide
@[simp] theorem FC.illegalToken_ne_writeError : (FC.illegalToken = FC.writeError) = False := by decide

@[simp] theorem activeFs_preEntry : activeFs FS.preEntry = true := by decide
@[simp] theorem activeFs_preTapein : activeFs FS.preTapein = true := by decide
@[simp] theorem activeFs_payWait : activeFs FS.payWait = false := by decide
@[simp] theorem activeFs_payBits : activeFs FS.payBits = true := by decide
@[simp] theorem activeFs_trlBits : activeFs FS.trlBits = true := by decide
@[simp] theorem activeFs_done : activeFs FS.done = false := by decide
@[simp] theorem activeFs_fault : activeFs FS.fault = false := by decide
@[simp] theorem activeFs_reserved : activeFs FS.reserved = false := by decide

/-- The four framing states in which a sample is on offer (10_state.md R34). -/
theorem activeFs_iff (f : BitVec 3) :
    activeFs f = true ↔ f = FS.preEntry ∨ f = FS.preTapein ∨ f = FS.payBits ∨ f = FS.trlBits := by
  revert f; decide

end Sys2Proof.Machine
end

