-- ==== Sys2Proof/Laws/Decode.lean ====
section
/-! SUPPORT. The fields of a TOK word (30_encoding.md R82, R87), and the symbols of a byte. -/

namespace Sys2Proof

@[simp] theorem tokKind_tokWord (k : BitVec 2) (x : Byte) : tokKind (tokWord k x) = k := by
  simp only [tokKind, tokWord]
  revert k x
  decide

@[simp] theorem tokData_tokWord (k : BitVec 2) (x : Byte) : tokData (tokWord k x) = x := by
  simp only [tokData, tokWord]
  revert k x
  decide

@[simp] theorem tokWord_fields (w : TokWord) : tokWord (tokKind w) (tokData w) = w := by
  simp only [tokWord, tokKind, tokData]
  revert w
  decide

/-- `{kind, data}` as a number (R82). -/
theorem tokWord_toNat (k : BitVec 2) (x : Byte) : (tokWord k x).toNat = k.toNat * 2 ^ 8 + x.toNat := by
  simp only [tokWord]
  revert k x
  decide

@[simp] theorem checksum_nil : checksum [] = Config.seed := rfl

@[simp] theorem bitsyms_length (b : Byte) : (bitsyms b).length = 8 := rfl

end Sys2Proof
end

