-- ==== Sys2Proof/Laws/State.lean ====
section
/-! SUPPORT. What each shared operation leaves in each field of the state: one lemma a field and operation, true by
unfolding, for simp. -/

namespace Sys2Proof.Machine

@[simp] theorem setPh_fs (s : State) (k : Nat) : (s.setPh k).fs = s.fs := rfl
@[simp] theorem setPh_fcode (s : State) (k : Nat) : (s.setPh k).fcode = s.fcode := rfl
@[simp] theorem setPh_ffs (s : State) (k : Nat) : (s.setPh k).ffs = s.ffs := rfl
@[simp] theorem setPh_cks (s : State) (k : Nat) : (s.setPh k).cks = s.cks := rfl
@[simp] theorem setPh_sh (s : State) (k : Nat) : (s.setPh k).sh = s.sh := rfl
@[simp] theorem setPh_bc (s : State) (k : Nat) : (s.setPh k).bc = s.bc := rfl
@[simp] theorem setPh_sym (s : State) (k : Nat) : (s.setPh k).sym = s.sym := rfl
@[simp] theorem setPh_sidx (s : State) (k : Nat) : (s.setPh k).sidx = s.sidx := rfl
@[simp] theorem setPh_ph (s : State) (k : Nat) : (s.setPh k).ph = k % 2 ^ s.cfg.phW := rfl
@[simp] theorem setPh_rem (s : State) (k : Nat) : (s.setPh k).rem = s.rem := rfl
@[simp] theorem setPh_cfg (s : State) (k : Nat) : (s.setPh k).cfg = s.cfg := rfl
@[simp] theorem setPh_edges (s : State) (k : Nat) : (s.setPh k).edges = s.edges := rfl
@[simp] theorem setPh_trace (s : State) (k : Nat) : (s.setPh k).trace = s.trace := rfl

@[simp] theorem setRem_fs (s : State) (n : Nat) : (s.setRem n).fs = s.fs := rfl
@[simp] theorem setRem_fcode (s : State) (n : Nat) : (s.setRem n).fcode = s.fcode := rfl
@[simp] theorem setRem_ffs (s : State) (n : Nat) : (s.setRem n).ffs = s.ffs := rfl
@[simp] theorem setRem_cks (s : State) (n : Nat) : (s.setRem n).cks = s.cks := rfl
@[simp] theorem setRem_sh (s : State) (n : Nat) : (s.setRem n).sh = s.sh := rfl
@[simp] theorem setRem_bc (s : State) (n : Nat) : (s.setRem n).bc = s.bc := rfl
@[simp] theorem setRem_sym (s : State) (n : Nat) : (s.setRem n).sym = s.sym := rfl
@[simp] theorem setRem_sidx (s : State) (n : Nat) : (s.setRem n).sidx = s.sidx := rfl
@[simp] theorem setRem_ph (s : State) (n : Nat) : (s.setRem n).ph = s.ph := rfl
@[simp] theorem setRem_rem (s : State) (n : Nat) : (s.setRem n).rem = n % 2 ^ s.cfg.remW := rfl
@[simp] theorem setRem_cfg (s : State) (n : Nat) : (s.setRem n).cfg = s.cfg := rfl
@[simp] theorem setRem_edges (s : State) (n : Nat) : (s.setRem n).edges = s.edges := rfl
@[simp] theorem setRem_trace (s : State) (n : Nat) : (s.setRem n).trace = s.trace := rfl

@[simp] theorem log_fs (s : State) (e : Event) : (s.log e).fs = s.fs := rfl
@[simp] theorem log_fcode (s : State) (e : Event) : (s.log e).fcode = s.fcode := rfl
@[simp] theorem log_ffs (s : State) (e : Event) : (s.log e).ffs = s.ffs := rfl
@[simp] theorem log_cks (s : State) (e : Event) : (s.log e).cks = s.cks := rfl
@[simp] theorem log_sh (s : State) (e : Event) : (s.log e).sh = s.sh := rfl
@[simp] theorem log_bc (s : State) (e : Event) : (s.log e).bc = s.bc := rfl
@[simp] theorem log_sym (s : State) (e : Event) : (s.log e).sym = s.sym := rfl
@[simp] theorem log_sidx (s : State) (e : Event) : (s.log e).sidx = s.sidx := rfl
@[simp] theorem log_ph (s : State) (e : Event) : (s.log e).ph = s.ph := rfl
@[simp] theorem log_rem (s : State) (e : Event) : (s.log e).rem = s.rem := rfl
@[simp] theorem log_cfg (s : State) (e : Event) : (s.log e).cfg = s.cfg := rfl
@[simp] theorem log_edges (s : State) (e : Event) : (s.log e).edges = s.edges := rfl
@[simp] theorem log_trace (s : State) (e : Event) : (s.log e).trace = e :: s.trace := rfl

@[simp] theorem raiseFault_fs (code : BitVec 2) (s : State) : (raiseFault code s).fs = FS.fault := rfl
@[simp] theorem raiseFault_fcode (code : BitVec 2) (s : State) : (raiseFault code s).fcode = code := rfl
@[simp] theorem raiseFault_ffs (code : BitVec 2) (s : State) : (raiseFault code s).ffs = s.fs := rfl
@[simp] theorem raiseFault_cks (code : BitVec 2) (s : State) : (raiseFault code s).cks = s.cks := rfl
@[simp] theorem raiseFault_sh (code : BitVec 2) (s : State) : (raiseFault code s).sh = s.sh := rfl
@[simp] theorem raiseFault_bc (code : BitVec 2) (s : State) : (raiseFault code s).bc = s.bc := rfl
@[simp] theorem raiseFault_sym (code : BitVec 2) (s : State) : (raiseFault code s).sym = s.sym := rfl
@[simp] theorem raiseFault_sidx (code : BitVec 2) (s : State) : (raiseFault code s).sidx = s.sidx := rfl
@[simp] theorem raiseFault_ph (code : BitVec 2) (s : State) : (raiseFault code s).ph = s.ph := rfl
@[simp] theorem raiseFault_rem (code : BitVec 2) (s : State) : (raiseFault code s).rem = s.rem := rfl
@[simp] theorem raiseFault_cfg (code : BitVec 2) (s : State) : (raiseFault code s).cfg = s.cfg := rfl
@[simp] theorem raiseFault_edges (code : BitVec 2) (s : State) : (raiseFault code s).edges = s.edges := rfl
@[simp] theorem raiseFault_trace (code : BitVec 2) (s : State) : (raiseFault code s).trace = s.trace := rfl

@[simp] theorem segStart_fs (g : Seg) (s : State) : (segStart g s).fs = s.fs := rfl
@[simp] theorem segStart_fcode (g : Seg) (s : State) : (segStart g s).fcode = s.fcode := rfl
@[simp] theorem segStart_ffs (g : Seg) (s : State) : (segStart g s).ffs = s.ffs := rfl
@[simp] theorem segStart_cks (g : Seg) (s : State) : (segStart g s).cks = s.cks := rfl
@[simp] theorem segStart_sh (g : Seg) (s : State) : (segStart g s).sh = s.sh := rfl
@[simp] theorem segStart_bc (g : Seg) (s : State) : (segStart g s).bc = s.bc := rfl
@[simp] theorem segStart_sym (g : Seg) (s : State) : (segStart g s).sym = s.sym := rfl
@[simp] theorem segStart_sidx (g : Seg) (s : State) : (segStart g s).sidx = s.sidx := rfl
@[simp] theorem segStart_ph (g : Seg) (s : State) : (segStart g s).ph = (s.cfg.row g).K0 % 2 ^ s.cfg.phW := rfl
@[simp] theorem segStart_rem (g : Seg) (s : State) : (segStart g s).rem = (s.cfg.row g).N % 2 ^ s.cfg.remW := rfl
@[simp] theorem segStart_cfg (g : Seg) (s : State) : (segStart g s).cfg = s.cfg := rfl
@[simp] theorem segStart_edges (g : Seg) (s : State) : (segStart g s).edges = s.edges := rfl
@[simp] theorem segStart_trace (g : Seg) (s : State) : (segStart g s).trace = s.trace := rfl

@[simp] theorem issue_fs (t : SymWord) (s : State) : (issue t s).fs = s.fs := rfl
@[simp] theorem issue_fcode (t : SymWord) (s : State) : (issue t s).fcode = s.fcode := rfl
@[simp] theorem issue_ffs (t : SymWord) (s : State) : (issue t s).ffs = s.ffs := rfl
@[simp] theorem issue_cks (t : SymWord) (s : State) : (issue t s).cks = s.cks := rfl
@[simp] theorem issue_sh (t : SymWord) (s : State) : (issue t s).sh = s.sh := rfl
@[simp] theorem issue_bc (t : SymWord) (s : State) : (issue t s).bc = s.bc := rfl
@[simp] theorem issue_sym (t : SymWord) (s : State) : (issue t s).sym = t := rfl
@[simp] theorem issue_sidx (t : SymWord) (s : State) : (issue t s).sidx = 0#1 := rfl
@[simp] theorem issue_ph (t : SymWord) (s : State) : (issue t s).ph = (s.cfg.row (firstSeg (Sym.ofCode t))).K0 % 2 ^ s.cfg.phW := rfl
@[simp] theorem issue_rem (t : SymWord) (s : State) : (issue t s).rem = (s.cfg.row (firstSeg (Sym.ofCode t))).N % 2 ^ s.cfg.remW := rfl
@[simp] theorem issue_cfg (t : SymWord) (s : State) : (issue t s).cfg = s.cfg := rfl
@[simp] theorem issue_edges (t : SymWord) (s : State) : (issue t s).edges = s.edges := rfl
@[simp] theorem issue_trace (t : SymWord) (s : State) : (issue t s).trace = s.trace := rfl

@[simp] theorem resetRegs_fs (s : State) : (resetRegs s).fs = FS.preEntry := rfl
@[simp] theorem resetRegs_fcode (s : State) : (resetRegs s).fcode = FC.none := rfl
@[simp] theorem resetRegs_ffs (s : State) : (resetRegs s).ffs = 0b000#3 := rfl
@[simp] theorem resetRegs_cks (s : State) : (resetRegs s).cks = Config.seed := rfl
@[simp] theorem resetRegs_sh (s : State) : (resetRegs s).sh = 0x00#8 := rfl
@[simp] theorem resetRegs_bc (s : State) : (resetRegs s).bc = 0#3 := rfl
@[simp] theorem resetRegs_sym (s : State) : (resetRegs s).sym = 0b00#2 := rfl
@[simp] theorem resetRegs_sidx (s : State) : (resetRegs s).sidx = 0#1 := rfl
@[simp] theorem resetRegs_ph (s : State) : (resetRegs s).ph = s.cfg.entry.K0 % 2 ^ s.cfg.phW := rfl
@[simp] theorem resetRegs_rem (s : State) : (resetRegs s).rem = s.cfg.entry.N % 2 ^ s.cfg.remW := rfl
@[simp] theorem resetRegs_cfg (s : State) : (resetRegs s).cfg = s.cfg := rfl
@[simp] theorem resetRegs_edges (s : State) : (resetRegs s).edges = s.edges := rfl
@[simp] theorem resetRegs_trace (s : State) : (resetRegs s).trace = s.trace := rfl

@[simp] theorem passEdge_fs (s : State) : s.passEdge.fs = s.fs := rfl
@[simp] theorem passEdge_fcode (s : State) : s.passEdge.fcode = s.fcode := rfl
@[simp] theorem passEdge_ffs (s : State) : s.passEdge.ffs = s.ffs := rfl
@[simp] theorem passEdge_cks (s : State) : s.passEdge.cks = s.cks := rfl
@[simp] theorem passEdge_sh (s : State) : s.passEdge.sh = s.sh := rfl
@[simp] theorem passEdge_bc (s : State) : s.passEdge.bc = s.bc := rfl
@[simp] theorem passEdge_sym (s : State) : s.passEdge.sym = s.sym := rfl
@[simp] theorem passEdge_sidx (s : State) : s.passEdge.sidx = s.sidx := rfl
@[simp] theorem passEdge_ph (s : State) : s.passEdge.ph = s.ph := rfl
@[simp] theorem passEdge_rem (s : State) : s.passEdge.rem = s.rem := rfl
@[simp] theorem passEdge_cfg (s : State) : s.passEdge.cfg = s.cfg := rfl
@[simp] theorem passEdge_edges (s : State) : s.passEdge.edges = s.edges.tail := rfl
@[simp] theorem passEdge_trace (s : State) : s.passEdge.trace = s.trace := rfl

@[simp] theorem placeEdge_fs (s : State) (e : Edge) : (s.placeEdge e).fs = s.fs := rfl
@[simp] theorem placeEdge_fcode (s : State) (e : Edge) : (s.placeEdge e).fcode = s.fcode := rfl
@[simp] theorem placeEdge_ffs (s : State) (e : Edge) : (s.placeEdge e).ffs = s.ffs := rfl
@[simp] theorem placeEdge_cks (s : State) (e : Edge) : (s.placeEdge e).cks = s.cks := rfl
@[simp] theorem placeEdge_sh (s : State) (e : Edge) : (s.placeEdge e).sh = s.sh := rfl
@[simp] theorem placeEdge_bc (s : State) (e : Edge) : (s.placeEdge e).bc = s.bc := rfl
@[simp] theorem placeEdge_sym (s : State) (e : Edge) : (s.placeEdge e).sym = s.sym := rfl
@[simp] theorem placeEdge_sidx (s : State) (e : Edge) : (s.placeEdge e).sidx = s.sidx := rfl
@[simp] theorem placeEdge_ph (s : State) (e : Edge) : (s.placeEdge e).ph = s.ph := rfl
@[simp] theorem placeEdge_rem (s : State) (e : Edge) : (s.placeEdge e).rem = s.rem := rfl
@[simp] theorem placeEdge_cfg (s : State) (e : Edge) : (s.placeEdge e).cfg = s.cfg := rfl
@[simp] theorem placeEdge_edges (s : State) (e : Edge) : (s.placeEdge e).edges = e :: s.edges := rfl
@[simp] theorem placeEdge_trace (s : State) (e : Edge) : (s.placeEdge e).trace = s.trace := rfl

@[simp] theorem decRem_fs (s : State) : s.decRem.fs = s.fs := rfl
@[simp] theorem decRem_fcode (s : State) : s.decRem.fcode = s.fcode := rfl
@[simp] theorem decRem_ffs (s : State) : s.decRem.ffs = s.ffs := rfl
@[simp] theorem decRem_cks (s : State) : s.decRem.cks = s.cks := rfl
@[simp] theorem decRem_sh (s : State) : s.decRem.sh = s.sh := rfl
@[simp] theorem decRem_bc (s : State) : s.decRem.bc = s.bc := rfl
@[simp] theorem decRem_sym (s : State) : s.decRem.sym = s.sym := rfl
@[simp] theorem decRem_sidx (s : State) : s.decRem.sidx = s.sidx := rfl
@[simp] theorem decRem_ph (s : State) : s.decRem.ph = s.ph := rfl
@[simp] theorem decRem_rem (s : State) : s.decRem.rem = (s.rem + (2 ^ s.cfg.remW - 1)) % 2 ^ s.cfg.remW := rfl
@[simp] theorem decRem_cfg (s : State) : s.decRem.cfg = s.cfg := rfl
@[simp] theorem decRem_edges (s : State) : s.decRem.edges = s.edges := rfl
@[simp] theorem decRem_trace (s : State) : s.decRem.trace = s.trace := rfl

@[simp] theorem sampleWrite_fs (s : State) (v : Byte) : (s.sampleWrite v).fs = s.fs := rfl
@[simp] theorem sampleWrite_fcode (s : State) (v : Byte) : (s.sampleWrite v).fcode = s.fcode := rfl
@[simp] theorem sampleWrite_ffs (s : State) (v : Byte) : (s.sampleWrite v).ffs = s.ffs := rfl
@[simp] theorem sampleWrite_cks (s : State) (v : Byte) : (s.sampleWrite v).cks = s.cks := rfl
@[simp] theorem sampleWrite_sh (s : State) (v : Byte) : (s.sampleWrite v).sh = s.sh := rfl
@[simp] theorem sampleWrite_bc (s : State) (v : Byte) : (s.sampleWrite v).bc = s.bc := rfl
@[simp] theorem sampleWrite_sym (s : State) (v : Byte) : (s.sampleWrite v).sym = s.sym := rfl
@[simp] theorem sampleWrite_sidx (s : State) (v : Byte) : (s.sampleWrite v).sidx = s.sidx := rfl
@[simp] theorem sampleWrite_ph (s : State) (v : Byte) : (s.sampleWrite v).ph = s.ph := rfl
@[simp] theorem sampleWrite_rem (s : State) (v : Byte) : (s.sampleWrite v).rem = s.rem := rfl
@[simp] theorem sampleWrite_cfg (s : State) (v : Byte) : (s.sampleWrite v).cfg = s.cfg := rfl
@[simp] theorem sampleWrite_edges (s : State) (v : Byte) : (s.sampleWrite v).edges = s.edges := rfl
@[simp] theorem sampleWrite_trace (s : State) (v : Byte) : (s.sampleWrite v).trace = .sample v :: s.trace := rfl

@[simp] theorem tokRead_fs (s : State) (w : TokWord) : (s.tokRead w).fs = s.fs := rfl
@[simp] theorem tokRead_fcode (s : State) (w : TokWord) : (s.tokRead w).fcode = s.fcode := rfl
@[simp] theorem tokRead_ffs (s : State) (w : TokWord) : (s.tokRead w).ffs = s.ffs := rfl
@[simp] theorem tokRead_cks (s : State) (w : TokWord) : (s.tokRead w).cks = s.cks := rfl
@[simp] theorem tokRead_sh (s : State) (w : TokWord) : (s.tokRead w).sh = s.sh := rfl
@[simp] theorem tokRead_bc (s : State) (w : TokWord) : (s.tokRead w).bc = s.bc := rfl
@[simp] theorem tokRead_sym (s : State) (w : TokWord) : (s.tokRead w).sym = s.sym := rfl
@[simp] theorem tokRead_sidx (s : State) (w : TokWord) : (s.tokRead w).sidx = s.sidx := rfl
@[simp] theorem tokRead_ph (s : State) (w : TokWord) : (s.tokRead w).ph = s.ph := rfl
@[simp] theorem tokRead_rem (s : State) (w : TokWord) : (s.tokRead w).rem = s.rem := rfl
@[simp] theorem tokRead_cfg (s : State) (w : TokWord) : (s.tokRead w).cfg = s.cfg := rfl
@[simp] theorem tokRead_edges (s : State) (w : TokWord) : (s.tokRead w).edges = s.edges := rfl
@[simp] theorem tokRead_trace (s : State) (w : TokWord) : (s.tokRead w).trace = .token w :: s.trace := rfl

@[simp] theorem wfail_fs (s : State) : (wfail s).fs = FS.fault := rfl
@[simp] theorem wfail_fcode (s : State) : (wfail s).fcode = FC.writeError := rfl
@[simp] theorem wfail_ffs (s : State) : (wfail s).ffs = s.fs := rfl
@[simp] theorem wfail_cks (s : State) : (wfail s).cks = s.cks := rfl
@[simp] theorem wfail_sh (s : State) : (wfail s).sh = s.sh := rfl
@[simp] theorem wfail_bc (s : State) : (wfail s).bc = s.bc := rfl
@[simp] theorem wfail_sym (s : State) : (wfail s).sym = s.sym := rfl
@[simp] theorem wfail_sidx (s : State) : (wfail s).sidx = s.sidx := rfl
@[simp] theorem wfail_ph (s : State) : (wfail s).ph = s.ph := rfl
@[simp] theorem wfail_rem (s : State) : (wfail s).rem = s.rem := rfl
@[simp] theorem wfail_cfg (s : State) : (wfail s).cfg = s.cfg := rfl
@[simp] theorem wfail_edges (s : State) : (wfail s).edges = s.edges := rfl
@[simp] theorem wfail_trace (s : State) : (wfail s).trace = .wfail :: s.trace := rfl

@[simp] theorem resetStep_fs (s : State) : (resetStep s).fs = FS.preEntry := rfl
@[simp] theorem resetStep_fcode (s : State) : (resetStep s).fcode = FC.none := rfl
@[simp] theorem resetStep_ffs (s : State) : (resetStep s).ffs = 0b000#3 := rfl
@[simp] theorem resetStep_cks (s : State) : (resetStep s).cks = Config.seed := rfl
@[simp] theorem resetStep_sh (s : State) : (resetStep s).sh = 0x00#8 := rfl
@[simp] theorem resetStep_bc (s : State) : (resetStep s).bc = 0#3 := rfl
@[simp] theorem resetStep_sym (s : State) : (resetStep s).sym = 0b00#2 := rfl
@[simp] theorem resetStep_sidx (s : State) : (resetStep s).sidx = 0#1 := rfl
@[simp] theorem resetStep_ph (s : State) : (resetStep s).ph = s.cfg.entry.K0 % 2 ^ s.cfg.phW := rfl
@[simp] theorem resetStep_rem (s : State) : (resetStep s).rem = s.cfg.entry.N % 2 ^ s.cfg.remW := rfl
@[simp] theorem resetStep_cfg (s : State) : (resetStep s).cfg = s.cfg := rfl
@[simp] theorem resetStep_edges (s : State) : (resetStep s).edges = s.edges := rfl
@[simp] theorem resetStep_trace (s : State) : (resetStep s).trace = .reset :: s.trace := rfl

@[simp] theorem deliver_fs (P : Nat) (v : Byte) (s : State) : (deliver P v s).fs = s.fs := rfl
@[simp] theorem deliver_fcode (P : Nat) (v : Byte) (s : State) : (deliver P v s).fcode = s.fcode := rfl
@[simp] theorem deliver_ffs (P : Nat) (v : Byte) (s : State) : (deliver P v s).ffs = s.ffs := rfl
@[simp] theorem deliver_cks (P : Nat) (v : Byte) (s : State) : (deliver P v s).cks = s.cks := rfl
@[simp] theorem deliver_sh (P : Nat) (v : Byte) (s : State) : (deliver P v s).sh = s.sh := rfl
@[simp] theorem deliver_bc (P : Nat) (v : Byte) (s : State) : (deliver P v s).bc = s.bc := rfl
@[simp] theorem deliver_sym (P : Nat) (v : Byte) (s : State) : (deliver P v s).sym = s.sym := rfl
@[simp] theorem deliver_sidx (P : Nat) (v : Byte) (s : State) : (deliver P v s).sidx = s.sidx := rfl
@[simp] theorem deliver_ph (P : Nat) (v : Byte) (s : State) : (deliver P v s).ph = (s.ph + 1) % P % 2 ^ s.cfg.phW := rfl
@[simp] theorem deliver_rem (P : Nat) (v : Byte) (s : State) : (deliver P v s).rem = (s.rem + (2 ^ s.cfg.remW - 1)) % 2 ^ s.cfg.remW := rfl
@[simp] theorem deliver_cfg (P : Nat) (v : Byte) (s : State) : (deliver P v s).cfg = s.cfg := rfl
@[simp] theorem deliver_edges (P : Nat) (v : Byte) (s : State) : (deliver P v s).edges = s.edges := rfl
@[simp] theorem deliver_trace (P : Nat) (v : Byte) (s : State) : (deliver P v s).trace = .sample v :: s.trace := rfl

end Sys2Proof.Machine
end

