-- ==== Sys2Proof/Laws/Tables.lean ====
section
/-! SUPPORT. What a well-formed configuration gives (10_state.md R31), and the mapper's table. -/

namespace Sys2Proof

theorem Row.wf_iff (phW remW : Nat) (r : Row) :
    r.wf phW remW = true ↔ 1 ≤ r.P ∧ r.P ≤ 2 ^ phW ∧ 1 ≤ r.N ∧ r.N ≤ 2 ^ remW - 1 ∧ r.K0 < r.P := by
  simp [Row.wf, and_assoc]

theorem Cfg.wf_iff (c : Cfg) : c.wf = true ↔ ∀ g, c.rowOk g = true := by
  constructor
  · intro h g
    simp only [Cfg.wf, Bool.and_eq_true] at h
    obtain ⟨⟨⟨⟨h0, h1⟩, h2⟩, h3⟩, h4⟩ := h
    cases g <;> assumption
  · intro h
    simp [Cfg.wf, h]

theorem Cfg.wf_row {c : Cfg} (h : c.wf = true) (g : Seg) :
    1 ≤ (c.row g).P ∧ (c.row g).P ≤ 2 ^ c.phW ∧ 1 ≤ (c.row g).N ∧ (c.row g).N ≤ 2 ^ c.remW - 1 ∧
      (c.row g).K0 < (c.row g).P := by
  have h := (Cfg.wf_iff c).mp h g
  simp only [Cfg.rowOk, Bool.and_eq_true] at h
  exact (Row.wf_iff _ _ _).mp h.1

theorem Cfg.wf_N_lt {c : Cfg} (h : c.wf = true) (g : Seg) : (c.row g).N < 2 ^ c.remW := by
  have := Cfg.wf_row h g
  have := Nat.two_pow_pos c.remW
  omega

theorem Cfg.wf_K0_lt {c : Cfg} (h : c.wf = true) (g : Seg) : (c.row g).K0 < 2 ^ c.phW := by
  have := Cfg.wf_row h g
  omega

theorem Cfg.wf_K0_mod {c : Cfg} (h : c.wf = true) (g : Seg) : (c.row g).K0 % 2 ^ c.phW = (c.row g).K0 :=
  Nat.mod_eq_of_lt (Cfg.wf_K0_lt h g)

theorem Cfg.wf_N_mod {c : Cfg} (h : c.wf = true) (g : Seg) : (c.row g).N % 2 ^ c.remW = (c.row g).N :=
  Nat.mod_eq_of_lt (Cfg.wf_N_lt h g)

/-- R31's last point: `LUT(P, k)` is defined for every k below a period of `CFG`. -/
theorem Cfg.wf_lut {c : Cfg} (h : c.wf = true) (g : Seg) {k : Nat} (hk : k < (c.row g).P) :
    ∃ v, c.lut (c.row g).P k = some v := by
  have h := (Cfg.wf_iff c).mp h g
  simp only [Cfg.rowOk, Cfg.lutCovers, Bool.and_eq_true, decide_eq_true_eq] at h
  refine ⟨(c.sineOf (c.row g).P)[k]'(by omega), ?_⟩
  simp [Cfg.lut, hk, show k < (c.sineOf (c.row g).P).length by omega]

namespace Machine

theorem segAt_zero (t : SymWord) : segAt t 0 = some (firstSeg (Sym.ofCode t)) := by
  unfold segAt
  cases Sym.ofCode t <;> rfl

/-- Only `TAPEIN` has a second segment (41_symbols.md R131). -/
theorem segAt_one (t : SymWord) : segAt t 1 = if t = 0b01#2 then some .tapeinB else none := by
  revert t; decide

theorem segAt_two_up (t : SymWord) (j : Nat) : segAt t (j + 2) = none := by
  unfold segAt
  cases Sym.ofCode t <;> rfl

@[simp] theorem ofCode_code (y : Sym) : Sym.ofCode y.code = y := by cases y <;> rfl

@[simp] theorem segOfCode_code (g : Seg) : Seg.ofCode g.code = some g := by cases g <;> rfl

/-- The SYM code of a bit value (30_encoding.md R80). -/
theorem bitCode_eq (v : Bool) : bitCode v = (bitSym v).code := by cases v <;> rfl

end Machine

end Sys2Proof
end

