-- ==== Sys2Proof/Laws/Ops.lean ====
section
/-! SUPPORT. What each shared operation and each step can do, said once: proofs cite these and do not unfold the
operation again. -/

namespace Sys2Proof.Machine

/-- `seg_start` under a well-formed configuration loads the row as it is. -/
theorem segStart_eq {s : State} (h : s.cfg.wf = true) (g : Seg) :
    segStart g s = { s with ph := (s.cfg.row g).K0, rem := (s.cfg.row g).N } := by
  simp only [segStart, State.setPh, State.setRem, Cfg.wf_K0_mod h, Cfg.wf_N_mod h]

/-- `issue` under a well-formed configuration. -/
theorem issue_eq {s : State} (h : s.cfg.wf = true) (t : SymWord) :
    issue t s = { s with sym := t, sidx := 0#1, ph := (s.cfg.row (firstSeg (Sym.ofCode t))).K0,
                         rem := (s.cfg.row (firstSeg (Sym.ofCode t))).N } := by
  unfold issue
  rw [segStart_eq (by simpa using h)]

/-- RESET under a well-formed configuration leaves the reset values (R40) and keeps the rest. -/
theorem resetStep_eq {s : State} (h : s.cfg.wf = true) :
    resetStep s = { State.resetWith s.cfg s.edges with trace := .reset :: s.trace } := by
  have hp := Cfg.wf_K0_mod h .entry
  have hr := Cfg.wf_N_mod h .entry
  simp only [Cfg.row] at hp hr
  simp only [resetStep, resetRegs, State.log, State.setPh, State.setRem, State.resetWith, hp, hr]

/-- The decrement of `rem` where it is not 0. -/
theorem decRem_eq {s : State} (h0 : 1 ≤ s.rem) (h1 : s.rem < 2 ^ s.cfg.remW) :
    s.decRem = { s with rem := s.rem - 1 } := by
  have e : s.rem + (2 ^ s.cfg.remW - 1) = (s.rem - 1) + 2 ^ s.cfg.remW := by omega
  simp only [State.decRem, State.setRem, e, Nat.add_mod_right, Nat.mod_eq_of_lt (show s.rem - 1 < 2 ^ s.cfg.remW by omega)]

/-- The part of EMIT for every sample, where a segment of a well-formed configuration is active. -/
theorem deliver_eq {s : State} {g : Seg} {v : Byte} (h : s.cfg.wf = true) (h0 : 1 ≤ s.rem)
    (h1 : s.rem ≤ (s.cfg.row g).N) :
    deliver (s.cfg.row g).P v s =
      { s with ph := (s.ph + 1) % (s.cfg.row g).P, rem := s.rem - 1, trace := .sample v :: s.trace } := by
  have hr := Cfg.wf_row h g
  have hN := Cfg.wf_N_lt h g
  have hp : (s.ph + 1) % (s.cfg.row g).P < 2 ^ s.cfg.phW :=
    Nat.lt_of_lt_of_le (Nat.mod_lt _ hr.1) hr.2.1
  unfold deliver
  rw [decRem_eq (by simpa using h0) (by simpa using Nat.lt_of_le_of_lt h1 hN)]
  simp only [State.setPh, State.sampleWrite, State.log, Nat.mod_eq_of_lt hp]

/-- All that `symbol_done` can do (R157). -/
theorem symbolDone_cases (s : State) :
    (s.fs = FS.preEntry ∧ symbolDone s = issue 0b01#2 { s with fs := FS.preTapein }) ∨
    (s.fs = FS.preTapein ∧ symbolDone s = { s with fs := FS.payWait }) ∨
    (s.fs = FS.payBits ∧ s.bc = 0#3 ∧ symbolDone s = { s with fs := FS.payWait }) ∨
    (s.fs = FS.trlBits ∧ s.bc = 0#3 ∧ symbolDone s = { s with fs := FS.done }) ∨
    ((s.fs = FS.payBits ∨ s.fs = FS.trlBits) ∧ s.bc ≠ 0#3 ∧
      symbolDone s = issue (bitCode (s.sh.getLsbD (s.bc - 1#3).toNat)) { s with bc := s.bc - 1#3 }) ∨
    (activeFs s.fs = false ∧ symbolDone s = s) := by
  unfold symbolDone
  by_cases h0 : s.fs = FS.preEntry
  · exact .inl ⟨h0, by simp [h0]⟩
  by_cases h1 : s.fs = FS.preTapein
  · exact .inr (.inl ⟨h1, by simp [h1]⟩)
  by_cases h2 : s.fs = FS.payBits
  · by_cases hb : s.bc = 0#3
    · exact .inr (.inr (.inl ⟨h2, hb, by simp [h2, hb]⟩))
    · exact .inr (.inr (.inr (.inr (.inl ⟨.inl h2, hb, by simp [h2, hb, State.bit]⟩))))
  by_cases h3 : s.fs = FS.trlBits
  · by_cases hb : s.bc = 0#3
    · exact .inr (.inr (.inr (.inl ⟨h3, hb, by simp [h3, hb]⟩)))
    · exact .inr (.inr (.inr (.inr (.inl ⟨.inr h3, hb, by simp [h3, hb, State.bit]⟩))))
  · exact .inr (.inr (.inr (.inr (.inr ⟨by simp_all [activeFs], by simp [h0, h1, h2, h3]⟩))))

/-- All that EMIT's last part can do (R104): the advance inside `TAPEIN`, or the end of the symbol. -/
theorem segmentDone_cases (s : State) :
    (s.sym = 0b01#2 ∧ s.sidx = 0#1 ∧ segmentDone s = segStart .tapeinB { s with sidx := 1#1 }) ∨
    (¬(s.sym = 0b01#2 ∧ s.sidx = 0#1) ∧ segmentDone s = symbolDone s) := by
  have hs : s.sidx = 0#1 ∨ s.sidx = 1#1 := by
    have : ∀ x : BitVec 1, x = 0#1 ∨ x = 1#1 := by decide
    exact this _
  unfold segmentDone
  obtain h | h := hs
  · by_cases ht : s.sym = 0b01#2
    · exact .inl ⟨ht, h, by simp [h, segAt_one, ht]⟩
    · exact .inr ⟨by simp [ht], by simp [h, segAt_one, ht]⟩
  · exact .inr ⟨by simp [h], by simp [h, segAt_two_up s.sym 0]⟩

/-- If EMIT answers a next state, a segment and a sample were on offer, and the segment goes on or is complete. -/
theorem emit_next {s t : State} (h : emit s = .next t) :
    ∃ g v, s.seg = some g ∧ s.cfg.lut (s.cfg.row g).P s.ph = some v ∧
      (((deliver (s.cfg.row g).P v s).rem ≠ 0 ∧ t = deliver (s.cfg.row g).P v s) ∨
       ((deliver (s.cfg.row g).P v s).rem = 0 ∧ t = segmentDone (deliver (s.cfg.row g).P v s))) := by
  unfold emit at h
  split at h
  · cases h
  · rename_i g hg
    split at h
    · cases h
    · rename_i v hv
      refine ⟨g, v, hg, hv, ?_⟩
      simp only at h
      split at h
      · rename_i h0
        exact .inr ⟨h0, (Host.Outcome.next.inj h).symm⟩
      · rename_i h0
        exact .inl ⟨h0, (Host.Outcome.next.inj h).symm⟩

/-- EMIT where a segment and a sample are on offer. -/
theorem emit_eq {s : State} {g : Seg} {v : Byte} (hg : s.seg = some g)
    (hv : s.cfg.lut (s.cfg.row g).P s.ph = some v) :
    emit s = if (deliver (s.cfg.row g).P v s).rem = 0 then .next (segmentDone (deliver (s.cfg.row g).P v s))
      else .next (deliver (s.cfg.row g).P v s) := by
  unfold emit
  simp only [hg, hv]

/-- A TOKEN step either runs, in `PAY_WAIT`, or changes nothing. -/
theorem tokenStep_next {w : TokWord} {body : State → State} {s t : State} (h : tokenStep w body s = .next t) :
    (s.fs = FS.payWait ∧ t = body (s.tokRead w)) ∨ (s.fs ≠ FS.payWait ∧ t = s) := by
  unfold tokenStep State.inReady at h
  split at h
  · rename_i h0
    exact .inl ⟨by simpa using h0, (Host.Outcome.next.inj h).symm⟩
  · rename_i h0
    exact .inr ⟨by simpa using h0, (Host.Outcome.next.inj h).symm⟩

/-- A TOKEN step where the sequencer waits for it. -/
theorem tokenStep_eq {w : TokWord} {body : State → State} {s : State} (h : s.fs = FS.payWait) :
    tokenStep w body s = .next (body (s.tokRead w)) := by
  simp [tokenStep, State.inReady, h]

/-- If one edge answers a next state, it was one of RESET, WFAIL, EMIT, TOKEN and hold (R186, R206). -/
theorem runEdge_next {e : Edge} {s t : State} (h : runEdge e s = .next t) :
    s.cfg.wf = true ∧
    ((e.rst = true ∧ t = resetStep s) ∨
     (e.rst = false ∧ s.legal = true ∧
      ((s.outValid = true ∧ e.outErr = true ∧ t = wfail s) ∨
       (s.outValid = true ∧ e.outErr = false ∧ e.outReady = true ∧ emit s = .next t) ∨
       (s.fs = FS.payWait ∧ e.inValid = true ∧ exec (decodeTok (tokWord e.inKind e.inData)) s = .next t) ∨
       (t = s)))) := by
  unfold runEdge runToken at h
  split at h
  · cases h
  rename_i h0
  refine ⟨by simpa using h0, ?_⟩
  split at h
  · rename_i h1
    exact .inl ⟨h1, (Host.Outcome.next.inj h).symm⟩
  rename_i h1
  split at h
  · cases h
  rename_i h2
  refine .inr ⟨by simpa using h1, by simpa using h2, ?_⟩
  split at h
  · rename_i h3
    simp only [Bool.and_eq_true] at h3
    exact .inl ⟨h3.1, h3.2, (Host.Outcome.next.inj h).symm⟩
  rename_i h3
  split at h
  · rename_i h4
    simp only [Bool.and_eq_true] at h4
    exact .inr (.inl ⟨h4.1, by simpa [h4.1] using h3, h4.2, h⟩)
  split at h
  · rename_i h5
    simp only [Bool.and_eq_true, State.inReady, beq_iff_eq] at h5
    exact .inr (.inr (.inl ⟨h5.1, h5.2, h⟩))
  · exact .inr (.inr (.inr (Host.Outcome.next.inj h).symm))

@[simp] theorem run_zero (s : State) : run 0 s = .next s := rfl

theorem run_succ (n : Nat) (s : State) :
    run (n + 1) s = match step s with
      | .next t => run n t
      | .fault r => .fault r
      | .refused r => .refused r := by
  have h : Host.Core.step Sys2Proof.core s = step s := rfl
  show Host.Core.run Sys2Proof.core (n + 1) s = _
  simp only [Host.Core.run, h]
  cases step s <;> rfl

/-- A run of `m + n` edges is a run of `n` after one of `m`. -/
theorem run_add (m n : Nat) (s : State) :
    run (m + n) s = match run m s with
      | .next t => run n t
      | .fault r => .fault r
      | .refused r => .refused r := by
  induction m generalizing s with
  | zero => simp
  | succ m ih =>
    rw [Nat.add_right_comm, run_succ, run_succ]
    cases step s <;> simp_all

/-- A symbol has as many samples as its segments last. -/
theorem symSamples_length (c : Cfg) (y : Sym) : (symSamples c y).length = symLen c y := by
  simp [symSamples, symLen, segSamples, List.length_flatMap]

/-- A frame without waits (70_reset_and_hazards.md R210) takes one edge a sample and one a token. -/
theorem frameEdges_length (c : Cfg) (bs : List Byte) :
    (frameEdges c bs).length = (frameSamples c bs).length + bs.length + 1 := by
  have h : ∀ ds : List Byte, (ds.map (fun b => ((bitsyms b).map (symLen c)).sum + 1)).sum =
      ((ds.flatMap bitsyms).map (symLen c)).sum + ds.length := by
    intro ds
    induction ds with
    | nil => rfl
    | cons b ds ih =>
      simp only [List.map_cons, List.sum_cons, ih, List.flatMap_cons, List.map_append, List.sum_append, List.length_cons]
      omega
  have e : (fun y => symLen c y) = symLen c := rfl
  simp only [frameEdges, frameSamples, frameSyms, List.length_flatMap, symSamples_length, List.length_append,
    List.map_append, List.sum_append, List.length_cons, acceptEdges, List.length_replicate, byteLen, List.map_cons,
    List.map_nil, List.sum_cons, List.sum_nil, h, e]
  omega

end Sys2Proof.Machine
end

