-- ==== Sys2Proof/Laws/PerInstr.lean ====
section
/-! SUPPORT. Statements made of every instruction as syntax, one lemma a constructor. -/

namespace Sys2Proof.Laws

/-- The selecting bits of the word of each operation: match and mask of its row in spec/opcode_table.json (30_encoding.md
R88). -/
def tableRow : Instr → Nat × Nat
  | .entry => (0x0, 0x3)
  | .tapein => (0x1, 0x3)
  | .bit0 => (0x2, 0x3)
  | .bit1 => (0x3, 0x3)
  | .segEntry => (0x0, 0x7)
  | .segTapeinA => (0x1, 0x7)
  | .segTapeinB => (0x2, 0x7)
  | .segBit0 => (0x3, 0x7)
  | .segBit1 => (0x4, 0x7)
  | .tokByte _ => (0x000, 0x300)
  | .tokEnd _ => (0x100, 0x300)
  | .tokError _ => (0x200, 0x300)
  | .tokRsvd _ => (0x300, 0x300)

/-- The encoded word carries the row's selecting bits. -/
def WordMatchesRow.Statement (i : Instr) : Prop := (encode i).toNat &&& (tableRow i).2 = (tableRow i).1

theorem WordMatchesRow.entry : WordMatchesRow.Statement .entry := by unfold WordMatchesRow.Statement; decide
theorem WordMatchesRow.tapein : WordMatchesRow.Statement .tapein := by unfold WordMatchesRow.Statement; decide
theorem WordMatchesRow.bit0 : WordMatchesRow.Statement .bit0 := by unfold WordMatchesRow.Statement; decide
theorem WordMatchesRow.bit1 : WordMatchesRow.Statement .bit1 := by unfold WordMatchesRow.Statement; decide
theorem WordMatchesRow.segEntry : WordMatchesRow.Statement .segEntry := by unfold WordMatchesRow.Statement; decide
theorem WordMatchesRow.segTapeinA : WordMatchesRow.Statement .segTapeinA := by unfold WordMatchesRow.Statement; decide
theorem WordMatchesRow.segTapeinB : WordMatchesRow.Statement .segTapeinB := by unfold WordMatchesRow.Statement; decide
theorem WordMatchesRow.segBit0 : WordMatchesRow.Statement .segBit0 := by unfold WordMatchesRow.Statement; decide
theorem WordMatchesRow.segBit1 : WordMatchesRow.Statement .segBit1 := by unfold WordMatchesRow.Statement; decide

theorem WordMatchesRow.tokByte (b : Byte) : WordMatchesRow.Statement (.tokByte b) := by
  unfold WordMatchesRow.Statement; revert b; decide
theorem WordMatchesRow.tokEnd (x : Byte) : WordMatchesRow.Statement (.tokEnd x) := by
  unfold WordMatchesRow.Statement; revert x; decide
theorem WordMatchesRow.tokError (x : Byte) : WordMatchesRow.Statement (.tokError x) := by
  unfold WordMatchesRow.Statement; revert x; decide
theorem WordMatchesRow.tokRsvd (x : Byte) : WordMatchesRow.Statement (.tokRsvd x) := by
  unfold WordMatchesRow.Statement; revert x; decide

end Sys2Proof.Laws
end

