-- ==== Sys2Proof/Tests/Slice0.lean ====
section
/-! SUPPORT. The model's own tests, with expected values from the spec's tables and from spec/95_test_vectors.md, and a
witness for the hypotheses of each statement. -/

namespace Sys2Proof.Tests

open Sys2Proof.Machine

/-! ## Well-formedness: each check refuses an ill-formed term (10_state.md R31, 30_encoding.md R89, R91) -/

theorem test_wf_default : defaultCfg.wf = true := by decide
theorem test_wf_refuses_P_zero : ({ defaultCfg with bit0 := { P := 0, N := 22, K0 := 0 } } : Cfg).wf = false := by decide
theorem test_wf_refuses_P_wide : ({ defaultCfg with phW := 5 } : Cfg).wf = false := by decide
theorem test_wf_refuses_N_zero : ({ defaultCfg with tapeinA := { P := 18, N := 0, K0 := 0 } } : Cfg).wf = false := by
  decide
theorem test_wf_refuses_N_wide : ({ defaultCfg with entry := { P := 57, N := 65536, K0 := 0 } } : Cfg).wf = false := by
  decide
theorem test_wf_refuses_K0_not_below_P :
    ({ defaultCfg with tapeinB := { P := 22, N := 11, K0 := 22 } } : Cfg).wf = false := by decide
theorem test_wf_refuses_missing_table : ({ defaultCfg with bit1 := { P := 43, N := 44, K0 := 0 } } : Cfg).wf = false := by
  decide
theorem test_wf_refuses_short_table : ({ defaultCfg with sine := [(57, sine57), (18, sine18), (22, sine22),
    (44, sine44.dropLast)] } : Cfg).wf = false := by decide
theorem test_wf_refuses_imm_256 : (Line.byte 256).wf = false ∧ (Line.rsvd 256).wf = false := by decide
theorem test_legal_refuses_fs_7 : ({ State.reset with fs := 0b111#3 } : State).legal = false := by decide
theorem test_legal_refuses_sidx_1 : ({ State.reset with sidx := 1#1 } : State).legal = false := by decide

/-! ## Encodings, bit by bit from R80 to R82, R86, R91, R92 -/

theorem test_decode_entry : decode (.sym 0b00#2) = .ok .entry := by decide
theorem test_decode_tapein : decode (.sym 0b01#2) = .ok .tapein := by decide
theorem test_decode_bit0 : decode (.sym 0b10#2) = .ok .bit0 := by decide
theorem test_decode_bit1 : decode (.sym 0b11#2) = .ok .bit1 := by decide
theorem test_decode_segEntry : decode (.seg 0b000#3) = .ok .segEntry := by decide
theorem test_decode_segTapeinA : decode (.seg 0b001#3) = .ok .segTapeinA := by decide
theorem test_decode_segTapeinB : decode (.seg 0b010#3) = .ok .segTapeinB := by decide
theorem test_decode_segBit0 : decode (.seg 0b011#3) = .ok .segBit0 := by decide
theorem test_decode_segBit1 : decode (.seg 0b100#3) = .ok .segBit1 := by decide
theorem test_decode_reserved : decode (.seg 0b101#3) = .error (.reservedSeg 0b101#3) := by decide
/-- 95 V7 #1: word 0x0A5. -/
theorem test_decode_tokByte : decode (.tok 0b0010100101#10) = .ok (.tokByte 0xA5#8) := by decide
/-- 95 V7 #8: word 0x1FF is an END. -/
theorem test_decode_tokEnd : decode (.tok 0b0111111111#10) = .ok (.tokEnd 0xFF#8) := by decide
/-- 95 V7 #10: word 0x2AB. -/
theorem test_decode_tokError : decode (.tok 0b1010101011#10) = .ok (.tokError 0xAB#8) := by decide
/-- 95 V7 #12: word 0x300. -/
theorem test_decode_tokRsvd : decode (.tok 0b1100000000#10) = .ok (.tokRsvd 0x00#8) := by decide

theorem test_table_words :
    decodeTableWord 8 1 = some .tapein ∧ decodeTableWord 8 4 = some .segBit1 ∧ decodeTableWord 3 1 = some .segTapeinA ∧
    decodeTableWord 24 2 = some .segTapeinB ∧ decodeTableWord 16 0x0A5 = some (.tokByte 0xA5#8) ∧
    decodeTableWord 16 0x300 = some (.tokRsvd 0x00#8) ∧ decodeTableWord 8 5 = none ∧ decodeTableWord 16 0x400 = none := by
  decide

/-- The default descriptor words of R86. -/
theorem test_descriptors :
    (defaultCfg.row .entry).descriptor 6 16 = 0x0E6DA680 ∧ (defaultCfg.row .tapeinA).descriptor 6 16 = 0x04800240 ∧
    (defaultCfg.row .tapeinB).descriptor 6 16 = 0x058002CB ∧ (defaultCfg.row .bit0).descriptor 6 16 = 0x05800580 ∧
    (defaultCfg.row .bit1).descriptor 6 16 = 0x0B000B00 := by decide

/-- The source expressions of R30 in exact arithmetic, rounded to the nearest integer. -/
theorem test_source_expressions :
    (Config.sampleRate * 1300 * 2 + 1000000) / 2000000 = 57 ∧ Config.sampleRate * 106 / 100 = 46746 ∧
    (Config.sampleRate * 400 * 2 + 1000000) / 2000000 = 18 ∧ (Config.sampleRate * 500 * 2 + 1000000) / 2000000 = 22 ∧
    (Config.sampleRate * 1000 * 2 + 1000000) / 2000000 = 44 := by decide

/-- 95 V5: 0xA5 MSB first. -/
theorem test_bitsyms_A5 : bitsyms 0xA5#8 = [.bit1, .bit0, .bit1, .bit0, .bit0, .bit1, .bit0, .bit1] := by decide
/-- 95 V6. -/
theorem test_checksums :
    checksum [0xA5#8, 0x3C#8] = 0x66#8 ∧ checksum [0x12#8, 0x34#8, 0x56#8] = 0x8F#8 ∧
    checksum [0x41#8, 0x42#8, 0x43#8] = 0xBF#8 := by decide
/-- R91. -/
theorem test_text : (Instr.tokByte 0xA5#8).text = "tok.byte 0xA5" := by decide
theorem test_assemble : (Line.byte 0x41).assemble = some (.tokByte 0x41#8) ∧ (Line.byte 256).assemble = none := by decide
/-- R92: the words 0x0A5, 0x03C, 0x100 of 95 P4. -/
theorem test_tokStream : (tokStream [0xA5#8, 0x3C#8]).map (fun i => (encode i).toNat) = [0x0A5, 0x03C, 0x100] := by decide

/-- 95 V1 and the sub-table sums of R101. -/
theorem test_lut_points :
    defaultCfg.lut 57 28 = some 133#8 ∧ defaultCfg.lut 57 29 = some 120#8 ∧ defaultCfg.lut 18 13 = some 1#8 ∧
    defaultCfg.lut 44 11 = some 254#8 ∧ defaultCfg.lut 44 33 = some 0#8 ∧ defaultCfg.lut 22 22 = none := by decide
theorem test_lut_sums :
    (sine57.map BitVec.toNat).sum = 7211 ∧ (sine18.map BitVec.toNat).sum = 2278 ∧ (sine22.map BitVec.toNat).sum = 2784 ∧
    (sine44.map BitVec.toNat).sum = 5568 := by decide

/-! ## One step at a time -/

/-- Does the outcome go on, in a state that satisfies `p`? -/
def nextIs (o : Host.Outcome State Fault Refusal) (p : State → Bool) : Bool :=
  match o with
  | .next t => p t
  | .fault _ => false
  | .refused _ => false

/-- The registers that change while samples are delivered. -/
def pos (s : State) : BitVec 3 × BitVec 3 × BitVec 2 × BitVec 1 × Nat × Nat := (s.fs, s.bc, s.sym, s.sidx, s.ph, s.rem)

/-- After the Preamble (95 V7), with the checksum `c` and the pins `e` next. -/
def waiting (c : Byte) (e : Edge) : State :=
  { State.resetWith defaultCfg [e] with fs := FS.payWait, cks := c, sym := 0b01#2, sidx := 1#1, ph := 0, rem := 0 }

/-- The state of 95 V2 with these registers, its sink accepting. -/
def sending (fs : BitVec 3) (sh : Byte) (bc : BitVec 3) (sym : BitVec 2) (sidx : BitVec 1) (ph rem : Nat) : State :=
  { State.resetWith defaultCfg [acceptEdge] with
    fs := fs, sh := sh, cks := 0x66#8, bc := bc, sym := sym, sidx := sidx, ph := ph, rem := rem }

/-- 95 V2 #1. -/
theorem test_emit_first : nextIs (step { State.reset with edges := [acceptEdge] })
    (fun t => pos t == (FS.preEntry, 0, 0b00#2, 0, 1, 46745) && t.trace == [.sample 127#8]) = true := by decide
/-- 95 V2 #2: the phase wraps. -/
theorem test_emit_wraps : nextIs (step (sending FS.preEntry 0 0 0b00#2 0 56 46690))
    (fun t => pos t == (FS.preEntry, 0, 0b00#2, 0, 0, 46689) && t.trace == [.sample 113#8]) = true := by decide
/-- 95 V2 #3. -/
theorem test_emit_ends_entry : nextIs (step (sending FS.preEntry 0 0 0b00#2 0 5 1))
    (fun t => pos t == (FS.preTapein, 0, 0b01#2, 0, 0, 9) && t.trace == [.sample 193#8]) = true := by decide
/-- 95 V2 #4. -/
theorem test_emit_advances_tapein : nextIs (step (sending FS.preTapein 0 0 0b01#2 0 8 1))
    (fun t => pos t == (FS.preTapein, 0, 0b01#2, 1, 11, 11) && t.trace == [.sample 170#8]) = true := by decide
/-- 95 V2 #6. -/
theorem test_emit_ends_preamble : nextIs (step (sending FS.preTapein 0 0 0b01#2 1 21 1))
    (fun t => pos t == (FS.payWait, 0, 0b01#2, 1, 0, 0) && t.trace == [.sample 91#8]) = true := by decide
/-- 95 V2 #7. -/
theorem test_emit_next_bit : nextIs (step (sending FS.payBits 0xA5 7 0b11#2 0 43 1))
    (fun t => pos t == (FS.payBits, 6, 0b10#2, 0, 0, 22) && t.trace == [.sample 108#8]) = true := by decide
/-- 95 V2 #8. -/
theorem test_emit_ends_byte : nextIs (step (sending FS.payBits 0xA5 0 0b11#2 0 43 1))
    (fun t => pos t == (FS.payWait, 0, 0b11#2, 0, 0, 0) && t.trace == [.sample 108#8]) = true := by decide
/-- 95 V2 #9. -/
theorem test_emit_ends_frame : nextIs (step (sending FS.trlBits 0x66 0 0b10#2 0 21 1))
    (fun t => pos t == (FS.done, 0, 0b10#2, 0, 0, 0) && t.status == 0x05#8) = true := by decide

/-- 95 V7 #1. -/
theorem test_tokByte_A5 : nextIs (step (waiting 0xFF#8 (tokenEdge 0x0A5#10)))
    (fun t => pos t == (FS.payBits, 7, 0b11#2, 0, 0, 44) && t.cks == 0x5A#8 && t.sh == 0xA5#8 && t.status == 0x03#8) = true := by
  decide
/-- 95 V7 #5. -/
theorem test_tokByte_5A : nextIs (step (waiting 0x5A#8 (tokenEdge 0x05A#10)))
    (fun t => pos t == (FS.payBits, 7, 0b10#2, 0, 0, 22) && t.cks == 0x00#8 && t.sh == 0x5A#8) = true := by decide
/-- 95 V7 #6. -/
theorem test_tokEnd_FF : nextIs (step (waiting 0xFF#8 (tokenEdge 0x100#10)))
    (fun t => pos t == (FS.trlBits, 7, 0b11#2, 0, 0, 44) && t.sh == 0xFF#8 && t.cks == 0xFF#8 && t.status == 0x04#8) = true := by
  decide
/-- 95 V7 #8: the data of END is ignored. -/
theorem test_tokEnd_data_ignored : nextIs (step (waiting 0x66#8 (tokenEdge 0x1FF#10)))
    (fun t => pos t == (FS.trlBits, 7, 0b10#2, 0, 0, 22) && t.sh == 0x66#8) = true := by decide
/-- 95 V7 #9, #10. -/
theorem test_tokError : nextIs (step (waiting 0xBE#8 (tokenEdge 0x2AB#10)))
    (fun t => t.status == 0x4E#8 && t.cks == 0xBE#8 && pos t == (FS.fault, 0, 0b01#2, 1, 0, 0)) = true := by decide
/-- 95 V7 #11. -/
theorem test_tokRsvd : nextIs (step (waiting 0xFE#8 (tokenEdge 0x3FF#10)))
    (fun t => t.status == 0x5E#8 && t.cks == 0xFE#8 && t.trace == [.token 0x3FF#10]) = true := by decide
/-- 95 V9: index 46765; the sample is refused and the completion does not happen. -/
theorem test_wfail_last_preamble_sample :
    nextIs (step { sending FS.preTapein 0 0 0b01#2 1 21 1 with edges := [{ errEdge with outReady := true }] })
    (fun t => t.status == 0x36#8 && pos t == (FS.fault, 0, 0b01#2, 1, 21, 1) && t.trace == [.wfail]) = true := by decide
/-- 95 V10 #1 and #3: from a fault, with a token offered at the reset edge. -/
theorem test_reset_from_fault :
    nextIs (step { waiting 0xBE#8 { tokenEdge 0x041#10 with rst := true } with fs := FS.fault, fcode := FC.readError, ffs := FS.payWait })
    (fun t => t.status == 0x00#8 && t.cks == 0xFF#8 && pos t == (FS.preEntry, 0, 0b00#2, 0, 0, 46746)) = true := by decide
/-- 95 V13: hold. -/
theorem test_hold : nextIs (step State.reset) (fun t => t == State.reset) = true := by decide

/-- 41_symbols.md R134, R135: issued from the reset state. -/
theorem test_exec_tapein : nextIs (exec .tapein State.reset) (fun t => pos t == (FS.preEntry, 0, 0b01#2, 0, 0, 9)) = true := by
  decide
theorem test_exec_bit0 : nextIs (exec .bit0 State.reset) (fun t => pos t == (FS.preEntry, 0, 0b10#2, 0, 0, 22)) = true := by
  decide
theorem test_exec_bit1 : nextIs (exec .bit1 State.reset) (fun t => pos t == (FS.preEntry, 0, 0b11#2, 0, 0, 44)) = true := by
  decide
/-- R151: what `issue(ENTRY)` leaves is what reset leaves. -/
theorem test_exec_entry : nextIs (exec .entry State.reset) (fun t => t == State.reset) = true := by decide
/-- 40_dds.md R112: part B starts at its phase π. -/
theorem test_exec_segTapeinB : nextIs (exec .segTapeinB State.reset) (fun t => t.ph == 11 && t.rem == 11) = true := by decide

/-- Every opcode-table word is run by the very next step from reset. -/
theorem test_placed_words :
    nextIs (step (State.reset.withFetchWord 8 0)) (fun t => t.trace == [.reset]) = true ∧
    nextIs (step (State.reset.withFetchWord 8 1)) (fun t => t.sym == 0b01#2 && t.rem == 9) = true ∧
    nextIs (step (State.reset.withFetchWord 8 2)) (fun t => t.sym == 0b10#2 && t.rem == 22) = true ∧
    nextIs (step (State.reset.withFetchWord 8 3)) (fun t => t.sym == 0b11#2 && t.rem == 44) = true ∧
    nextIs (step (State.reset.withFetchWord 3 2)) (fun t => t.sidx == 1#1 && t.rem == 11 && t.ph == 11) = true ∧
    nextIs (step (State.reset.withFetchWord 8 4)) (fun t => t.sym == 0b11#2 && t.rem == 44) = true ∧
    nextIs (step (State.reset.withFetchWord 16 0x0A5)) (fun t => t.sh == 0xA5#8 && t.cks == 0x5A#8) = true ∧
    nextIs (step (State.reset.withFetchWord 16 0x100)) (fun t => t.fs == FS.trlBits) = true ∧
    nextIs (step (State.reset.withFetchWord 16 0x200)) (fun t => t.status == 0x4E#8) = true ∧
    nextIs (step (State.reset.withFetchWord 16 0x300)) (fun t => t.status == 0x5E#8) = true := by decide

/-! ## Witnesses: states and operands that meet the hypotheses of each statement -/

/-- A test that holds of an outcome gives its next state. -/
theorem nextIs_exists {o : Host.Outcome State Fault Refusal} {p : State → Bool} (h : nextIs o p = true) :
    ∃ t, o = .next t ∧ p t = true := by
  cases o with
  | next t => exact ⟨t, rfl, h⟩
  | fault r => simp [nextIs] at h
  | refused r => simp [nextIs] at h

/-- Reset with the sink about to accept. -/
def w0 : State := { State.reset with edges := [acceptEdge] }
/-- The last Entry sample on offer. -/
def w1 : State := sending FS.preEntry 0 0 0b00#2 0 5 1
/-- The last sample of part A. -/
def w2 : State := sending FS.preTapein 0 0 0b01#2 0 8 1
/-- The last sample of part B. -/
def w3 : State := sending FS.preTapein 0 0 0b01#2 1 21 1
/-- The last sample of bit 7 of a data byte. -/
def w4 : State := sending FS.payBits 0xA5 7 0b11#2 0 43 1
/-- The last sample of bit 0 of a data byte. -/
def w5 : State := sending FS.payBits 0xA5 0 0b11#2 0 43 1
/-- The last sample of the trailer. -/
def w6 : State := sending FS.trlBits 0x66 0 0b10#2 0 21 1
/-- The last sample of bit 1 of the trailer. -/
def w7 : State := sending FS.trlBits 0x66 1 0b11#2 0 43 1

theorem w0_inv : w0.Inv :=
  ⟨by decide, fun _ => ⟨.entry, by decide⟩, by decide, by decide, by decide, by decide, by decide, by decide, by decide, by decide⟩
theorem w1_inv : w1.Inv :=
  ⟨by decide, fun _ => ⟨.entry, by decide⟩, by decide, by decide, by decide, by decide, by decide, by decide, by decide, by decide⟩
theorem w2_inv : w2.Inv :=
  ⟨by decide, fun _ => ⟨.tapeinA, by decide⟩, by decide, by decide, by decide, by decide, by decide, by decide, by decide, by decide⟩
theorem w3_inv : w3.Inv :=
  ⟨by decide, fun _ => ⟨.tapeinB, by decide⟩, by decide, by decide, by decide, by decide, by decide, by decide, by decide, by decide⟩
theorem w4_inv : w4.Inv :=
  ⟨by decide, fun _ => ⟨.bit1, by decide⟩, by decide, by decide, by decide, by decide, by decide, by decide, by decide, by decide⟩
theorem w5_inv : w5.Inv :=
  ⟨by decide, fun _ => ⟨.bit1, by decide⟩, by decide, by decide, by decide, by decide, by decide, by decide, by decide, by decide⟩
theorem w6_inv : w6.Inv :=
  ⟨by decide, fun _ => ⟨.bit0, by decide⟩, by decide, by decide, by decide, by decide, by decide, by decide, by decide, by decide⟩
theorem w7_inv : w7.Inv :=
  ⟨by decide, fun _ => ⟨.bit1, by decide⟩, by decide, by decide, by decide, by decide, by decide, by decide, by decide, by decide⟩

/-- What `EmitStepEffect` and `StepRunsInternalCodes` ask of the state and the pins. -/
def emits (s : State) : Prop :=
  s.cfg.wf = true ∧ s.Inv ∧ s.outValid = true ∧ s.edges = [acceptEdge] ∧ acceptEdge.rst = false ∧
    acceptEdge.outErr = false ∧ acceptEdge.outReady = true

theorem witness_EmitStepEffect :
    (emits w0 ∧ 1 < w0.rem) ∧ (emits w1 ∧ w1.rem = 1 ∧ w1.fs = FS.preEntry) ∧
    (emits w2 ∧ w2.rem = 1 ∧ w2.fs = FS.preTapein ∧ w2.sidx = 0#1) ∧
    (emits w3 ∧ w3.rem = 1 ∧ w3.fs = FS.preTapein ∧ w3.sidx = 1#1) ∧
    (emits w4 ∧ w4.rem = 1 ∧ w4.fs = FS.payBits ∧ w4.bc ≠ 0#3) ∧
    (emits w7 ∧ w7.rem = 1 ∧ w7.fs = FS.trlBits ∧ w7.bc ≠ 0#3) ∧
    (emits w5 ∧ w5.rem = 1 ∧ w5.fs = FS.payBits ∧ w5.bc = 0#3) ∧
    (emits w6 ∧ w6.rem = 1 ∧ w6.fs = FS.trlBits ∧ w6.bc = 0#3) :=
  ⟨⟨⟨by decide, w0_inv, by decide⟩, by decide⟩, ⟨⟨by decide, w1_inv, by decide⟩, by decide⟩,
   ⟨⟨by decide, w2_inv, by decide⟩, by decide⟩, ⟨⟨by decide, w3_inv, by decide⟩, by decide⟩,
   ⟨⟨by decide, w4_inv, by decide⟩, by decide⟩, ⟨⟨by decide, w7_inv, by decide⟩, by decide⟩,
   ⟨⟨by decide, w5_inv, by decide⟩, by decide⟩, ⟨⟨by decide, w6_inv, by decide⟩, by decide⟩⟩

theorem witness_StepRunsInternalCodes :
    (emits w1 ∧ w1.rem = 1 ∧ w1.seg = some .entry ∧ w1.offered = some 193#8 ∧ w1.fs = FS.preEntry) ∧
    (emits w2 ∧ w2.rem = 1 ∧ w2.seg = some .tapeinA ∧ w2.offered = some 170#8 ∧ w2.fs = FS.preTapein ∧ w2.sidx = 0#1) ∧
    (emits w4 ∧ w4.rem = 1 ∧ w4.seg = some .bit1 ∧ w4.offered = some 108#8 ∧ w4.fs = FS.payBits ∧ w4.bc ≠ 0#3 ∧
      decode (.sym (bitSym (w4.sh.getLsbD (w4.bc.toNat - 1))).code) = .ok .bit0) ∧
    (State.resetWith defaultCfg [rstEdge]).edges = rstEdge :: [] ∧ rstEdge.rst = true ∧
    (waiting 0xFF#8 acceptEdge).fs = FS.payWait ∧ decode (.sym (bitSym ((0xA5#8).getLsbD 7)).code) = .ok .bit1 ∧
    decode (.sym (bitSym ((waiting 0xFF#8 acceptEdge).cks.getLsbD 7)).code) = .ok .bit1 ∧
    decode (.sym Sym.tapein.code) = .ok .tapein ∧ decode (.seg (firstSeg .tapein).code) = .ok .segTapeinA :=
  ⟨⟨⟨by decide, w1_inv, by decide⟩, by decide⟩, ⟨⟨by decide, w2_inv, by decide⟩, by decide⟩,
   ⟨⟨by decide, w4_inv, by decide⟩, by decide⟩, by decide⟩

theorem witness_DescriptorReadsBack :
    ({ P := 57, N := 46746, K0 := 0 } : Row).wf 6 16 = true ∧ ({ P := 64, N := 65535, K0 := 63 } : Row).wf 6 16 = true := by
  decide

theorem witness_ResetStepEffect :
    ∃ s : State, s.cfg.wf = true ∧ s.edges = [rstEdge] ∧ rstEdge.rst = true ∧ s.fs = FS.reserved :=
  ⟨{ State.resetWith defaultCfg [rstEdge] with fs := FS.reserved }, by decide⟩

theorem witness_IllFormedConfigRefused :
    ∃ s : State, s.cfg.wf = false ∧ (s.cfg.row .bit0).N < 1 :=
  ⟨{ State.reset with cfg := { defaultCfg with bit0 := { P := 22, N := 0, K0 := 0 } } }, by decide⟩

theorem witness_ReservedStatesRefused :
    ∃ s t : State, s.cfg.wf = true ∧ t.cfg.wf = true ∧ s.edges = [acceptEdge] ∧ t.edges = [acceptEdge] ∧
      acceptEdge.rst = false ∧ s.fs = 0b111#3 ∧ t.sidx = 1#1 ∧ t.sym ≠ 0b01#2 :=
  ⟨{ w0 with fs := 0b111#3 }, { w0 with sidx := 1#1 }, by decide⟩

theorem witness_StepRunsDecodedToken :
    ∃ (s : State) (e : Edge), s.cfg.wf = true ∧ s.legal = true ∧ s.edges = [e] ∧ e.rst = false ∧ s.fs = FS.payWait ∧
      e.inValid = true ∧ decode (.tok (tokWord e.inKind e.inData)) = .ok (.tokByte 0xA5#8) ∧
      (Instr.tokByte 0xA5#8).wf = true :=
  ⟨waiting 0xFF#8 (tokenEdge 0x0A5#10), tokenEdge 0x0A5#10, by decide⟩

theorem witness_SymbolIssueEffect : State.reset.cfg.wf = true := by decide

theorem witness_SegmentStartEffect :
    w2.cfg.wf = true ∧ w2.seg = some .tapeinA ∧ activeFs w2.fs = true ∧
    decode (.seg Seg.entry.code) = .ok .segEntry ∧ decode (.seg Seg.tapeinA.code) = .ok .segTapeinA ∧
    decode (.seg Seg.tapeinB.code) = .ok .segTapeinB ∧ decode (.seg Seg.bit0.code) = .ok .segBit0 ∧
    decode (.seg Seg.bit1.code) = .ok .segBit1 := by decide

theorem witness_TokenEffects :
    (waiting 0xFF#8 acceptEdge).cfg.wf = true ∧ (waiting 0xFF#8 acceptEdge).fs = FS.payWait ∧
    State.reset.cfg.wf = true ∧ State.reset.fs ≠ FS.payWait := by decide

theorem witness_WriteFailureEffect :
    ∃ s : State, s.cfg.wf = true ∧ s.legal = true ∧ s.outValid = true ∧ s.edges = [errEdge] ∧ errEdge.rst = false ∧
      errEdge.outErr = true := ⟨{ w3 with edges := [errEdge] }, by decide⟩

theorem witness_MissingRomEntryFaults :
    ∃ s : State, s.cfg.wf = true ∧ s.legal = true ∧ s.outValid = true ∧ s.edges = [acceptEdge] ∧
      acceptEdge.rst = false ∧ acceptEdge.outErr = false ∧ acceptEdge.outReady = true ∧ s.seg = some .entry ∧
      (s.cfg.row .entry).P ≤ s.ph := ⟨{ w0 with ph := 57 }, by decide⟩

theorem witness_EdgePriority :
    (w0.cfg.wf = true ∧ w0.legal = true ∧ w0.outValid = true ∧ acceptEdge.outReady = true ∧ acceptEdge.outErr = false) ∧
    rstEdge.rst = true ∧ (errEdge.rst = false ∧ errEdge.outErr = true) ∧
    (Edge.idle.rst = false ∧ Edge.idle.outErr = false ∧ Edge.idle.outReady = false ∧ Edge.idle.inValid = false) ∧
    ((waiting 0 acceptEdge).legal = true ∧ (waiting 0 acceptEdge).inReady = true ∧ (tokenEdge 0x0A5#10).inValid = true) ∧
    (({ w6 with fs := FS.done } : State).outValid = false ∧ ({ w6 with fs := FS.done } : State).inReady = false ∧
      ({ w6 with fs := FS.done } : State).legal = true) := by decide

/-- While a sample is on offer, the pins of the input port are ignored; two different edges meet the hypotheses. -/
theorem witness_IgnoredPinsDoNotMatter :
    acceptEdge ≠ { acceptEdge with inValid := true, inData := 0x41#8 } ∧ w0.outValid = true ∧ w0.inReady = false ∧
    acceptEdge.rst = ({ acceptEdge with inValid := true, inData := 0x41#8 } : Edge).rst ∧
    acceptEdge.outErr = ({ acceptEdge with inValid := true, inData := 0x41#8 } : Edge).outErr ∧
    acceptEdge.outReady = ({ acceptEdge with inValid := true, inData := 0x41#8 } : Edge).outReady := by decide

theorem witness_FinalStatesHold :
    ({ w6 with fs := FS.done } : State).cfg.wf = true ∧ ({ w6 with fs := FS.done } : State).legal = true ∧
    ({ w6 with fs := FS.done } : State).final = true ∧ acceptEdge.rst = false ∧
    nextIs (step { w6 with fs := FS.done, edges := [rstEdge] }) (fun t => t.fs != FS.done) = true := by decide

theorem witness_OutputsAreRegisterFunctions :
    ∃ s t : State, s ≠ t ∧ s.regs = t.regs ∧ s.cfg = t.cfg := ⟨w0, State.reset, by decide⟩

theorem witness_SampleOnOfferExists : w0.cfg.wf = true ∧ w0.Inv ∧ w0.outValid = true := ⟨by decide, w0_inv, by decide⟩

theorem witness_ResetKeepsInvariants : defaultCfg.wf = true := by decide

/-- For the statements about every state with the invariants whose step goes on. -/
theorem witness_StepKeepsInvariants : w4.Inv ∧ ∃ t, step w4 = .next t ∧ t ≠ w4 := by
  refine ⟨w4_inv, ?_⟩
  obtain ⟨t, h, ht⟩ := nextIs_exists (p := fun t => t != w4) (show nextIs (step w4) (fun t => t != w4) = true by decide)
  exact ⟨t, h, by simpa using ht⟩

theorem witness_InvariantStatesNeverStop : w3.cfg.wf = true ∧ w3.Inv := ⟨by decide, w3_inv⟩

theorem witness_StepKeepsRegisterWidths : w4.widthsOk ∧ ∃ t, step w4 = .next t :=
  ⟨⟨by decide, by decide⟩, (witness_StepKeepsInvariants.2).imp fun _ h => h.1⟩

/-- For the statements about every step that answers a next state; each kind of step does so somewhere. -/
theorem witness_steps :
    nextIs (step w0) (fun t => t.trace == [.sample 127#8]) = true ∧
    nextIs (step { w0 with edges := [errEdge] }) (fun t => t.trace == [.wfail] && t.fs == FS.fault && t.fcode == FC.writeError) = true ∧
    nextIs (step { w0 with edges := [rstEdge] }) (fun t => t.trace == [.reset]) = true ∧
    nextIs (step (waiting 0x5A#8 (tokenEdge 0x05A#10))) (fun t => t.bc == 7#3 && t.cks == 0#8 && t.trace == [.token 0x05A#10]) = true ∧
    nextIs (step { w0 with edges := [] }) (fun t => t.trace == []) = true := by decide

theorem witness_TrailerBarrier :
    (waiting 0x66#8 (tokenEdge 0x100#10)).fs ≠ FS.trlBits ∧
    nextIs (step (waiting 0x66#8 (tokenEdge 0x100#10))) (fun t => t.fs == FS.trlBits) = true := by decide

theorem witness_ChecksumLaw :
    State.reset.cks = checksum State.reset.runBytes ∧ nextIs (step w0) (fun _ => true) = true ∧
    ([0x12#8, 0x34#8] : List Byte).Perm [0x34#8, 0x12#8] := by decide

theorem witness_SegmentDeliversSequence :
    ∃ s : State, s.cfg.wf = true ∧ s.legal = true ∧ activeFs s.fs = true ∧ s.seg = some .tapeinB ∧
      decode (.seg Seg.tapeinB.code) = .ok .segTapeinB ∧ (acceptEdges 11).length = (s.cfg.row .tapeinB).N ∧
      (∀ e ∈ acceptEdges 11, e.rst = false ∧ e.outErr = false ∧ e.outReady = true) ∧
      s.edges = acceptEdges 11 ++ [acceptEdge] :=
  ⟨{ w3 with edges := acceptEdges 11 ++ [acceptEdge] }, by decide⟩

theorem witness_SymbolDeliversSegments :
    ∃ s : State, s.cfg.wf = true ∧ activeFs s.fs = true ∧ decode (.sym Sym.tapein.code) = .ok .tapein ∧
      (acceptEdges 20).length = symLen s.cfg .tapein ∧
      (∀ e ∈ acceptEdges 20, e.rst = false ∧ e.outErr = false ∧ e.outReady = true) ∧
      s.edges = acceptEdges 20 ++ [acceptEdge] :=
  ⟨{ w2 with edges := acceptEdges 20 ++ [acceptEdge] }, by decide⟩

/-- A well-formed configuration of one sample a segment. -/
def tiny : Cfg where
  phW := 1
  remW := 1
  entry := { P := 1, N := 1, K0 := 0 }
  tapeinA := { P := 1, N := 1, K0 := 0 }
  tapeinB := { P := 1, N := 1, K0 := 0 }
  bit0 := { P := 1, N := 1, K0 := 0 }
  bit1 := { P := 2, N := 1, K0 := 1 }
  sine := [(1, [127#8]), (2, [127#8, 128#8])]

theorem witness_FrameRunReachesDone : tiny.wf = true ∧ defaultCfg.wf = true := by decide

theorem witness_ResetStartsFreshFrame :
    ∃ s : State, s.cfg.wf = true ∧ s.edges = rstEdge :: frameEdges s.cfg [0x41#8] ∧ s.fs = FS.fault :=
  ⟨{ State.resetWith tiny (rstEdge :: frameEdges tiny [0x41#8]) with fs := FS.fault }, by decide⟩

theorem witness_DeliveredIsFramePart : ∃ s : State, Reachable s ∧ s.runSamples = [127#8] := by
  obtain ⟨t, h, ht⟩ := nextIs_exists (show nextIs (run 1 (State.resetWith defaultCfg [acceptEdge]))
    (fun t => t.runSamples == [127#8]) = true by decide)
  exact ⟨t, ⟨defaultCfg, [acceptEdge], 1, by decide, h⟩, by simpa using ht⟩

/-- A reachable state in `DONE`: the empty frame of `tiny`, 12 edges. -/
theorem witness_DoneDeliveredWholeFrame : ∃ s : State, Reachable s ∧ s.fs = FS.done := by
  obtain ⟨t, h, ht⟩ := nextIs_exists (show nextIs (run 12 (State.resetWith tiny (frameEdges tiny [])))
    (fun t => t.fs == FS.done) = true by decide)
  exact ⟨t, ⟨tiny, frameEdges tiny [], 12, by decide, h⟩, by simpa using ht⟩

/-- A run of the empty frame of `tiny` that waits once: 13 edges for 11 samples and one token. -/
theorem witness_FrameEdgeCount :
    tiny.wf = true ∧ (frameSamples tiny []).length = 11 ∧
    nextIs (run 13 (State.resetWith tiny (Edge.idle :: frameEdges tiny []))) (fun t => t.fs == FS.done && t.runBytes == []) = true ∧
    nextIs (run 12 (State.resetWith tiny (frameEdges tiny []))) (fun t => t.fs == FS.done && t.runBytes == []) = true := by
  decide

/-- Two runs of different timing that have consumed the same tokens, both in `DONE`. -/
theorem witness_SameTokensSameSamples :
    ∃ s t : State, Reachable s ∧ Reachable t ∧ s ≠ t ∧ s.cfg = t.cfg ∧ s.runTokens = t.runTokens ∧
      s.fs = FS.done ∧ t.fs = FS.done := by
  obtain ⟨s, h, hs⟩ := nextIs_exists (show nextIs (run 12 (State.resetWith tiny (frameEdges tiny [])))
    (fun t => t.fs == FS.done && t.cfg == tiny && t.runTokens == [0x100#10] && t.edges == []) = true by decide)
  obtain ⟨t, k, ht⟩ := nextIs_exists (show nextIs (run 13 (State.resetWith tiny (Edge.idle :: frameEdges tiny [] ++ [Edge.idle])))
    (fun t => t.fs == FS.done && t.cfg == tiny && t.runTokens == [0x100#10] && t.edges == [Edge.idle]) = true by decide)
  simp only [Bool.and_eq_true, beq_iff_eq] at hs ht
  refine ⟨s, t, ⟨tiny, _, 12, by decide, h⟩, ⟨tiny, _, 13, by decide, k⟩, ?_, ?_, ?_, hs.1.1.1, ht.1.1.1⟩
  · intro he
    rw [he, ht.2] at hs
    exact absurd hs.2 (by simp)
  · rw [hs.1.1.2, ht.1.1.2]
  · rw [hs.1.2, ht.1.2]

theorem witness_FrameIsDecodable :
    (bitsyms 0xA5#8).map (symLen defaultCfg) = [44, 22, 44, 22, 22, 44, 22, 44] ∧
    frameSamples tiny [0x41#8] = frameSamples tiny [0x41#8] ∧ frameSamples tiny [0x41#8] ≠ frameSamples tiny [0x42#8] := by
  decide

theorem witness_DefaultSampleRange :
    w0.cfg = defaultCfg ∧ ∃ t, step w0 = .next t ∧ t.trace = .sample 127#8 :: w0.trace := by
  refine ⟨rfl, ?_⟩
  obtain ⟨t, h, ht⟩ := nextIs_exists (show nextIs (step w0) (fun t => t.trace == [.sample 127#8]) = true by decide)
  exact ⟨t, h, beq_iff_eq.mp ht⟩

/-- `tiny` with the values of the real sine: P = 1 has sin 0 = 0, so 127 (95 V1, last row). -/
def flat : Cfg := { tiny with bit1 := { P := 1, N := 1, K0 := 0 }, sine := [(1, [127#8])] }

theorem flat_agrees : LutAgrees flat := by
  intro g k hk
  have h1 : (flat.row g).P = 1 := by cases g <;> rfl
  rw [h1] at hk ⊢
  obtain rfl : k = 0 := by omega
  exact ⟨127#8, by decide, by simp [IsSinq, Config.amp, Config.ofs]⟩

theorem witness_SinqHasOneValueInRange :
    LutAgrees flat ∧ ∃ s t : State, s.cfg = flat ∧ step s = .next t ∧ t.trace = .sample 127#8 :: s.trace := by
  refine ⟨flat_agrees, State.resetWith flat [acceptEdge], ?_⟩
  obtain ⟨t, h, ht⟩ := nextIs_exists (show nextIs (step (State.resetWith flat [acceptEdge]))
    (fun t => t.trace == [.sample 127#8]) = true by decide)
  exact ⟨t, rfl, h, beq_iff_eq.mp ht⟩

end Sys2Proof.Tests
end

/-! PROOF. What a step leaves unchanged and what it records (00_scope.md R13, 10_state.md R42), and the widths of `ph`
and `rem` (00_scope.md R9). Both are read off the inversion lemmas of Laws/Ops.lean: a step is RESET, WFAIL, EMIT, TOKEN
or hold. -/

namespace Sys2Proof.Machine

/-! ### The TOKEN step -/

/-- A TOK word is one of the four kinds, and decodes to the operation of its kind (30_encoding.md R82, R88). -/
theorem decodeTok_cases (w : TokWord) :
    (∃ b, w = tokWord 0b00#2 b ∧ decodeTok w = .tokByte b) ∨
    (∃ x, w = tokWord 0b01#2 x ∧ decodeTok w = .tokEnd x) ∨
    (∃ x, w = tokWord 0b10#2 x ∧ decodeTok w = .tokError x) ∨
    (∃ x, w = tokWord 0b11#2 x ∧ decodeTok w = .tokRsvd x) := by
  have kinds : ∀ k : BitVec 2, k = 0b00#2 ∨ k = 0b01#2 ∨ k = 0b10#2 ∨ k = 0b11#2 := by decide
  rw [← tokWord_fields w]
  obtain h | h | h | h := kinds (tokKind w)
  · exact .inl ⟨tokData w, by rw [h], by simp [decodeTok, h]⟩
  · exact .inr (.inl ⟨tokData w, by rw [h], by simp [decodeTok, h]⟩)
  · exact .inr (.inr (.inl ⟨tokData w, by rw [h], by simp [decodeTok, h]⟩))
  · exact .inr (.inr (.inr ⟨tokData w, by rw [h], by simp [decodeTok, h]⟩))

theorem exec_tokByte_of_payWait {s : State} (hs : s.fs = FS.payWait) (b : Byte) :
    exec (.tokByte b) s =
      .next (startByte FS.payBits b { s.tokRead (tokWord 0b00#2 b) with cks := s.cks ^^^ b }) := by
  rw [exec, execTokByte, tokenStep_eq hs, tokRead_cks]

theorem exec_tokEnd_of_payWait {s : State} (hs : s.fs = FS.payWait) (x : Byte) :
    exec (.tokEnd x) s = .next (startByte FS.trlBits s.cks (s.tokRead (tokWord 0b01#2 x))) :=
  tokenStep_eq hs

theorem exec_tokError_of_payWait {s : State} (hs : s.fs = FS.payWait) (x : Byte) :
    exec (.tokError x) s = .next (raiseFault FC.readError (s.tokRead (tokWord 0b10#2 x))) :=
  tokenStep_eq hs

theorem exec_tokRsvd_of_payWait {s : State} (hs : s.fs = FS.payWait) (x : Byte) :
    exec (.tokRsvd x) s = .next (raiseFault FC.illegalToken (s.tokRead (tokWord 0b11#2 x))) :=
  tokenStep_eq hs

/-- All that a consumed token can do (42_framing.md R153 to R156). -/
theorem exec_decodeTok_next {w : TokWord} {s t : State} (hs : s.fs = FS.payWait)
    (h : exec (decodeTok w) s = .next t) :
    (∃ b, w = tokWord 0b00#2 b ∧ t = startByte FS.payBits b { s.tokRead w with cks := s.cks ^^^ b }) ∨
    (∃ x, w = tokWord 0b01#2 x ∧ t = startByte FS.trlBits s.cks (s.tokRead w)) ∨
    (∃ x, w = tokWord 0b10#2 x ∧ t = raiseFault FC.readError (s.tokRead w)) ∨
    (∃ x, w = tokWord 0b11#2 x ∧ t = raiseFault FC.illegalToken (s.tokRead w)) := by
  obtain ⟨b, rfl, hd⟩ | ⟨x, rfl, hd⟩ | ⟨x, rfl, hd⟩ | ⟨x, rfl, hd⟩ := decodeTok_cases w <;> rw [hd] at h
  · rw [exec_tokByte_of_payWait hs] at h
    exact .inl ⟨b, rfl, (Host.Outcome.next.inj h).symm⟩
  · rw [exec_tokEnd_of_payWait hs] at h
    exact .inr (.inl ⟨x, rfl, (Host.Outcome.next.inj h).symm⟩)
  · rw [exec_tokError_of_payWait hs] at h
    exact .inr (.inr (.inl ⟨x, rfl, (Host.Outcome.next.inj h).symm⟩))
  · rw [exec_tokRsvd_of_payWait hs] at h
    exact .inr (.inr (.inr ⟨x, rfl, (Host.Outcome.next.inj h).symm⟩))

/-! ### The parameters, the pins to come and the record -/

@[simp] theorem startByte_cfg (f : BitVec 3) (b : Byte) (s : State) : (startByte f b s).cfg = s.cfg := rfl
@[simp] theorem startByte_edges (f : BitVec 3) (b : Byte) (s : State) : (startByte f b s).edges = s.edges := rfl
@[simp] theorem startByte_trace (f : BitVec 3) (b : Byte) (s : State) : (startByte f b s).trace = s.trace := rfl

theorem symbolDone_frame (s : State) :
    (symbolDone s).cfg = s.cfg ∧ (symbolDone s).edges = s.edges ∧ (symbolDone s).trace = s.trace := by
  obtain ⟨-, h⟩ | ⟨-, h⟩ | ⟨-, -, h⟩ | ⟨-, -, h⟩ | ⟨-, -, h⟩ | ⟨-, h⟩ := symbolDone_cases s <;> simp [h]

theorem segmentDone_frame (s : State) :
    (segmentDone s).cfg = s.cfg ∧ (segmentDone s).edges = s.edges ∧ (segmentDone s).trace = s.trace := by
  obtain ⟨-, -, h⟩ | ⟨-, h⟩ := segmentDone_cases s
  · simp [h]
  · rw [h]
    exact symbolDone_frame s

/-- EMIT delivers one sample (40_dds.md R104), whatever it does after it. -/
theorem emit_frame {s t : State} (h : emit s = .next t) :
    t.cfg = s.cfg ∧ t.edges = s.edges ∧ ∃ v, t.trace = .sample v :: s.trace := by
  obtain ⟨g, v, -, -, ⟨-, rfl⟩ | ⟨-, rfl⟩⟩ := emit_next h
  · exact ⟨rfl, rfl, v, rfl⟩
  · obtain ⟨hcfg, hedges, htrace⟩ := segmentDone_frame (deliver (s.cfg.row g).P v s)
    exact ⟨hcfg, hedges, v, htrace⟩

/-- A consumed token is recorded, whatever its kind. -/
theorem exec_decodeTok_frame {w : TokWord} {s t : State} (hs : s.fs = FS.payWait)
    (h : exec (decodeTok w) s = .next t) :
    t.cfg = s.cfg ∧ t.edges = s.edges ∧ t.trace = .token w :: s.trace := by
  obtain ⟨b, -, rfl⟩ | ⟨x, -, rfl⟩ | ⟨x, -, rfl⟩ | ⟨x, -, rfl⟩ := exec_decodeTok_next hs h <;> simp

/-- Settles O23: every kind of step but hold records its own event, and none writes the parameters or the pins. -/
theorem stepIsOneTransaction : Obligations.StepIsOneTransaction := by
  intro s t h
  obtain ⟨-, ⟨-, rfl⟩ | ⟨-, -, hstep⟩⟩ := runEdge_next h
  · exact ⟨rfl, rfl, .inr ⟨.reset, rfl⟩⟩
  obtain ⟨-, -, rfl⟩ | ⟨-, -, -, hemit⟩ | ⟨hwait, -, htok⟩ | rfl := hstep
  · exact ⟨rfl, rfl, .inr ⟨.wfail, rfl⟩⟩
  · obtain ⟨hcfg, hedges, v, htrace⟩ := emit_frame hemit
    exact ⟨hcfg, hedges, .inr ⟨.sample v, htrace⟩⟩
  · obtain ⟨hcfg, hedges, htrace⟩ := exec_decodeTok_frame hwait htok
    exact ⟨hcfg, hedges, .inr ⟨_, htrace⟩⟩
  · exact ⟨rfl, rfl, .inl rfl⟩

/-! ### The widths of `ph` and `rem`

Every write of `ph` and `rem` cuts to the width, so an operation that writes both meets the widths from any state; the
others keep both registers. -/

/-- The two register writes together: what RESET, `seg_start` and EMIT do to `ph` and `rem`. -/
theorem setPh_setRem_widthsOk (s : State) (k n : Nat) : ((s.setPh k).setRem n).widthsOk :=
  ⟨Nat.mod_lt _ (Nat.two_pow_pos _), Nat.mod_lt _ (Nat.two_pow_pos _)⟩

theorem segStart_widthsOk (g : Seg) (s : State) : (segStart g s).widthsOk := setPh_setRem_widthsOk ..

theorem issue_widthsOk (t : SymWord) (s : State) : (issue t s).widthsOk := segStart_widthsOk ..

theorem startByte_widthsOk (f : BitVec 3) (b : Byte) (s : State) : (startByte f b s).widthsOk := issue_widthsOk ..

theorem deliver_widthsOk (P : Nat) (v : Byte) (s : State) : (deliver P v s).widthsOk := setPh_setRem_widthsOk ..

theorem resetStep_widthsOk (s : State) : (resetStep s).widthsOk := setPh_setRem_widthsOk ..

theorem symbolDone_widthsOk {s : State} (hs : s.widthsOk) : (symbolDone s).widthsOk := by
  obtain ⟨-, h⟩ | ⟨-, h⟩ | ⟨-, -, h⟩ | ⟨-, -, h⟩ | ⟨-, -, h⟩ | ⟨-, h⟩ := symbolDone_cases s <;> rw [h]
  · exact issue_widthsOk ..
  · exact hs
  · exact hs
  · exact hs
  · exact issue_widthsOk ..
  · exact hs

theorem segmentDone_widthsOk {s : State} (hs : s.widthsOk) : (segmentDone s).widthsOk := by
  obtain ⟨-, -, h⟩ | ⟨-, h⟩ := segmentDone_cases s <;> rw [h]
  · exact segStart_widthsOk ..
  · exact symbolDone_widthsOk hs

theorem emit_widthsOk {s t : State} (h : emit s = .next t) : t.widthsOk := by
  obtain ⟨g, v, -, -, ⟨-, rfl⟩ | ⟨-, rfl⟩⟩ := emit_next h
  · exact deliver_widthsOk ..
  · exact segmentDone_widthsOk (deliver_widthsOk ..)

theorem exec_decodeTok_widthsOk {w : TokWord} {s t : State} (hs : s.widthsOk) (hwait : s.fs = FS.payWait)
    (h : exec (decodeTok w) s = .next t) : t.widthsOk := by
  obtain ⟨b, -, rfl⟩ | ⟨x, -, rfl⟩ | ⟨x, -, rfl⟩ | ⟨x, -, rfl⟩ := exec_decodeTok_next hwait h
  · exact startByte_widthsOk ..
  · exact startByte_widthsOk ..
  · exact hs
  · exact hs

/-- Settles O31: RESET and EMIT cut both registers to their widths, a token loads both or neither, and WFAIL and hold
keep them. -/
theorem stepKeepsRegisterWidths : Obligations.StepKeepsRegisterWidths := by
  intro s t hs h
  obtain ⟨-, ⟨-, rfl⟩ | ⟨-, -, hstep⟩⟩ := runEdge_next h
  · exact resetStep_widthsOk s.passEdge
  obtain ⟨-, -, rfl⟩ | ⟨-, -, -, hemit⟩ | ⟨hwait, -, htok⟩ | rfl := hstep
  · exact hs
  · exact emit_widthsOk hemit
  · exact exec_decodeTok_widthsOk (s := s.passEdge) hs hwait htok
  · exact hs

end Sys2Proof.Machine

/-! PROOF. The invariants of 10_state.md R35 (with R21, R23, R180): they hold after reset, every step keeps them, and a
state that has them never stops. There is one lemma an operation: `issue` establishes the invariants of the segment it
starts, from any `ph`, `rem`, `sym` and `sidx`; a fault entry freezes those of the state it leaves; EMIT goes on inside
a segment, or ends it and goes to the next segment, the next symbol, `PAY_WAIT` or `DONE`. -/

namespace Sys2Proof.Machine

/-! ### Reading the invariants -/

theorem ne_fault_of_activeFs {f : BitVec 3} (h : activeFs f = true) : f ≠ FS.fault := by
  rintro rfl
  simp at h

theorem framing_of_ne_fault {s : State} (h : s.fs ≠ FS.fault) : s.framing = s.fs := if_neg h

theorem framing_of_activeFs {s : State} (h : activeFs s.fs = true) : s.framing = s.fs :=
  framing_of_ne_fault (ne_fault_of_activeFs h)

/-- A state with the invariants holds no reserved internal code (30_encoding.md R89). -/
theorem State.Inv.legal {s : State} (hs : s.Inv) : s.legal = true := by
  have hfs : s.fs ≠ FS.reserved := fun h => hs.framingLegal.1 (by simp [State.framing, h])
  have hbit : ∀ j : BitVec 1, j ≠ 0#1 → j = 1#1 := by decide
  have hsidx : s.sidx = 0#1 ∨ s.sym = 0b01#2 :=
    or_iff_not_imp_left.mpr fun h => (hs.sidxOne (hbit _ h)).1
  simpa [State.legal, hfs] using hsidx

/-- Where `out_valid` = 1 the ROM has the sample on offer (R35 (a), R31). -/
theorem State.Inv.exists_sample {s : State} (hs : s.Inv) (hwf : s.cfg.wf = true) (hact : activeFs s.fs = true) :
    ∃ g v, s.seg = some g ∧ s.cfg.lut (s.cfg.row g).P s.ph = some v := by
  obtain ⟨g, hg, -, -, hph⟩ := hs.activeRange (framing_of_activeFs hact ▸ hact)
  obtain ⟨v, hv⟩ := Cfg.wf_lut hwf g hph
  exact ⟨g, v, hg, hv⟩

theorem State.Inv.passEdge {s : State} (hs : s.Inv) : s.passEdge.Inv := { hs with }

theorem State.Inv.log {s : State} (hs : s.Inv) (e : Event) : (s.log e).Inv := { hs with }

/-! ### The invariants of an active state without R35 (a)

They do not read `ph` and `rem`, so they also hold between the last sample of a segment and the row of the next, where
`symbol_done` runs and R35 (a) fails. -/

/-- The invariants of a state in which a segment is active (R34), but R35 (a). -/
structure State.ActiveInv (s : State) : Prop where
  active : activeFs s.fs = true
  symEntry : s.fs = FS.preEntry → s.sym = 0b00#2
  symTapein : s.fs = FS.preTapein → s.sym = 0b01#2
  symBit : s.fs = FS.payBits ∨ s.fs = FS.trlBits → s.sym = bitCode s.bit
  sidxOne : s.sidx = 1#1 → s.fs = FS.preTapein
  shIsCks : s.fs = FS.trlBits → s.sh = s.cks
  clean : s.fcode = FC.none ∧ s.ffs = 0b000#3

theorem State.Inv.activeInv {s : State} (hs : s.Inv) (hact : activeFs s.fs = true) : s.ActiveInv := by
  have hfr := framing_of_activeFs hact
  constructor
  case active => exact hact
  case symEntry => exact hfr ▸ hs.symEntry
  case symTapein => exact hfr ▸ hs.symTapein
  case symBit => exact hfr ▸ hs.symBit
  case sidxOne =>
    intro h
    obtain ⟨-, h⟩ := hs.sidxOne h
    rw [hfr] at h
    exact h.resolve_right fun h => by simp [h] at hact
  case shIsCks => exact fun h => hs.shIsCks (.inl (hfr.trans h))
  case clean => exact hs.noFault (ne_fault_of_activeFs hact)

theorem State.ActiveInv.ne_fault {s : State} (h : s.ActiveInv) : s.fs ≠ FS.fault := ne_fault_of_activeFs h.active

/-- With R35 (a), they are all of the invariants. -/
theorem State.ActiveInv.inv {s : State} {g : Seg} (h : s.ActiveInv) (hg : s.seg = some g) (h1 : 1 ≤ s.rem)
    (hN : s.rem ≤ (s.cfg.row g).N) (hP : s.ph < (s.cfg.row g).P) : s.Inv := by
  have hact := h.active
  have hfr := framing_of_activeFs hact
  have idle : ∀ f, activeFs f = false → s.fs ≠ f := fun f hf hs => by simp [hs, hf] at hact
  constructor
  case framingLegal => simp [hfr, idle]
  case activeRange => exact fun _ => ⟨g, hg, h1, hN, hP⟩
  case symEntry => exact hfr ▸ h.symEntry
  case symTapein => exact hfr ▸ h.symTapein
  case symBit => exact hfr ▸ h.symBit
  case sidxOne => exact fun hj => ⟨h.symTapein (h.sidxOne hj), .inl (hfr.trans (h.sidxOne hj))⟩
  case remZero => simp [hfr, idle]
  case shIsCks => simpa [hfr, idle] using h.shIsCks
  case noFault => exact fun _ => h.clean
  case faultCause => exact fun hf => absurd hf h.ne_fault

/-- Where the symbol `TAPEIN` is active, the Tape-in marker is being emitted (R35 (b)). -/
theorem State.ActiveInv.fs_of_tapein {s : State} (h : s.ActiveInv) (hsym : s.sym = 0b01#2) :
    s.fs = FS.preTapein := by
  have hne : ∀ v, bitCode v ≠ 0b01#2 := by decide
  obtain hf | hf | hf := (activeFs_iff s.fs).mp h.active
  · exact absurd ((h.symEntry hf).symm.trans hsym) (by decide)
  · exact hf
  · exact absurd ((h.symBit hf).symm.trans hsym) (hne _)

theorem State.ActiveInv.deliver {s : State} (h : s.ActiveInv) (P : Nat) (v : Byte) :
    (deliver P v s).ActiveInv := { h with }

/-! ### The operations -/

/-- A symbol that is issued has the row of its first segment loaded, so R35 (a) holds whatever came before. -/
theorem issue_inv {s : State} {w : SymWord} (hwf : s.cfg.wf = true) (h : (issue w s).ActiveInv) : (issue w s).Inv := by
  obtain ⟨-, -, hN, -, hK0⟩ := Cfg.wf_row hwf (firstSeg (Sym.ofCode w))
  refine h.inv (segAt_zero w) ?_ ?_ ?_ <;>
    simp only [issue_rem, issue_ph, issue_cfg, Cfg.wf_N_mod hwf, Cfg.wf_K0_mod hwf]
  · exact hN
  · exact le_rfl
  · exact hK0

/-- The bit symbol of the current bit is the one that `PAY_BITS` and `TRL_BITS` ask for. -/
theorem issue_bit_inv {s : State} (hwf : s.cfg.wf = true) (hf : s.fs = FS.payBits ∨ s.fs = FS.trlBits)
    (hsh : s.fs = FS.trlBits → s.sh = s.cks) (hclean : s.fcode = FC.none ∧ s.ffs = 0b000#3) :
    (issue (bitCode s.bit) s).Inv := by
  apply issue_inv hwf
  constructor
  case active => exact (activeFs_iff s.fs).mpr (.inr (.inr hf))
  case symEntry => obtain hf | hf := hf <;> simp [hf]
  case symTapein => obtain hf | hf := hf <;> simp [hf]
  case symBit => exact fun _ => rfl
  case sidxOne => simp
  case shIsCks => exact hsh
  case clean => exact hclean

/-- The Preamble's two symbols, each in its framing state (42_framing.md R151, R157). -/
theorem issue_preamble_inv {s : State} {w : SymWord} (hwf : s.cfg.wf = true)
    (hw : s.fs = FS.preEntry ∧ w = 0b00#2 ∨ s.fs = FS.preTapein ∧ w = 0b01#2)
    (hclean : s.fcode = FC.none ∧ s.ffs = 0b000#3) : (issue w s).Inv := by
  apply issue_inv hwf
  constructor
  case clean => exact hclean
  all_goals obtain ⟨hf, rfl⟩ | ⟨hf, rfl⟩ := hw <;> simp [hf]

/-- RESET leaves what `ENTRY` leaves (42_framing.md R151), whatever the state was. -/
theorem resetStep_inv {s : State} (hwf : s.cfg.wf = true) : (resetStep s).Inv := by
  have h : issue 0b00#2 (resetStep s) = resetStep s := by
    rw [issue_eq (s := resetStep s) hwf, resetStep_eq hwf]
    rfl
  exact h ▸ issue_preamble_inv (s := resetStep s) hwf (.inl ⟨rfl, rfl⟩) ⟨rfl, rfl⟩

/-- A byte starts with its bit 7; the trailer's byte is the checksum (42_framing.md R153, R154). -/
theorem startByte_inv {s : State} {f : BitVec 3} {b : Byte} (hwf : s.cfg.wf = true)
    (hf : f = FS.payBits ∨ f = FS.trlBits) (hsh : f = FS.trlBits → b = s.cks)
    (hclean : s.fcode = FC.none ∧ s.ffs = 0b000#3) : (startByte f b s).Inv :=
  issue_bit_inv (s := { s with sh := b, bc := 7#3, fs := f }) hwf hf hsh hclean

/-- Fault entry with a cause that fits the state (60_exceptions.md R180, R183). -/
theorem raiseFault_inv {s : State} {code : BitVec 2} (hs : s.Inv)
    (hcause : (code = FC.writeError ∧ activeFs s.fs = true) ∨
      ((code = FC.readError ∨ code = FC.illegalToken) ∧ s.fs = FS.payWait)) : (raiseFault code s).Inv := by
  have hf : s.fs ≠ FS.fault := fun h => by simp [h] at hcause
  have hdone : s.fs ≠ FS.done := fun h => by simp [h] at hcause
  have hfr : s.framing = (raiseFault code s).framing := framing_of_ne_fault hf
  obtain ⟨hlegal, hframing, -⟩ := hs.framingLegal
  constructor
  case framingLegal => exact hfr ▸ ⟨hlegal, hframing, fun _ => framing_of_ne_fault hf ▸ hdone⟩
  case activeRange => exact hfr ▸ hs.activeRange
  case symEntry => exact hfr ▸ hs.symEntry
  case symTapein => exact hfr ▸ hs.symTapein
  case symBit => exact hfr ▸ hs.symBit
  case sidxOne => exact hfr ▸ hs.sidxOne
  case remZero => exact hfr ▸ hs.remZero
  case shIsCks => exact hfr ▸ hs.shIsCks
  case noFault => exact fun h => absurd rfl h
  case faultCause => exact fun _ => hcause

theorem wfail_inv {s : State} (hs : s.Inv) (hact : activeFs s.fs = true) : (wfail s).Inv :=
  raiseFault_inv (hs.log .wfail) (.inl ⟨rfl, hact⟩)

/-- A symbol has ended in the Preamble or the Payload: the sequencer waits for a token. -/
theorem payWait_inv {s : State} (h : s.ActiveInv) (hrem : s.rem = 0) : { s with fs := FS.payWait }.Inv := by
  have hfr : { s with fs := FS.payWait }.framing = FS.payWait := rfl
  constructor
  case sidxOne => exact fun hj => ⟨h.symTapein (h.sidxOne hj), .inr rfl⟩
  case remZero => exact fun _ => hrem
  case noFault => exact fun _ => h.clean
  all_goals simp [hfr]

/-- The trailer has ended: the frame is complete. -/
theorem done_inv {s : State} (h : s.ActiveInv) (hf : s.fs = FS.trlBits) (hrem : s.rem = 0) :
    { s with fs := FS.done }.Inv := by
  have hfr : { s with fs := FS.done }.framing = FS.done := rfl
  constructor
  case sidxOne => exact fun hj => absurd (hf.symm.trans (h.sidxOne hj)) (by decide)
  case remZero => exact fun _ => hrem
  case shIsCks => exact fun _ => h.shIsCks hf
  case noFault => exact fun _ => h.clean
  all_goals simp [hfr]

theorem symbolDone_inv {s : State} (hwf : s.cfg.wf = true) (h : s.ActiveInv) (hrem : s.rem = 0) :
    (symbolDone s).Inv := by
  obtain ⟨-, e⟩ | ⟨-, e⟩ | ⟨-, -, e⟩ | ⟨hf, -, e⟩ | ⟨hf, -, e⟩ | ⟨hoff, -⟩ := symbolDone_cases s
  · exact e ▸ issue_preamble_inv (s := { s with fs := FS.preTapein }) hwf (.inr ⟨rfl, rfl⟩) h.clean
  · exact e ▸ payWait_inv h hrem
  · exact e ▸ payWait_inv h hrem
  · exact e ▸ done_inv h hf hrem
  · exact e ▸ issue_bit_inv (s := { s with bc := s.bc - 1#3 }) hwf hf h.shIsCks h.clean
  · exact absurd (h.active.symm.trans hoff) (by decide)

theorem segmentDone_inv {s : State} (hwf : s.cfg.wf = true) (h : s.ActiveInv) (hrem : s.rem = 0) :
    (segmentDone s).Inv := by
  obtain ⟨hsym, -, e⟩ | ⟨-, e⟩ := segmentDone_cases s
  · have hg : segAt s.sym 1 = some .tapeinB := (segAt_one s.sym).trans (if_pos hsym)
    obtain ⟨-, -, hN, -, hK0⟩ := Cfg.wf_row hwf .tapeinB
    rw [e, segStart_eq (s := { s with sidx := 1#1 }) hwf]
    exact State.ActiveInv.inv { h with sidxOne := fun _ => h.fs_of_tapein hsym } hg hN le_rfl hK0
  · exact e ▸ symbolDone_inv hwf h hrem

theorem emit_inv {s t : State} (hwf : s.cfg.wf = true) (hs : s.Inv) (hact : activeFs s.fs = true)
    (h : emit s = .next t) : t.Inv := by
  obtain ⟨g, hg, hrem, hN, -⟩ := hs.activeRange (framing_of_activeFs hact ▸ hact)
  obtain ⟨g', v, hg', -, hnext⟩ := emit_next h
  obtain rfl : g' = g := Option.some.inj (hg'.symm.trans hg)
  have hdel := (hs.activeInv hact).deliver (s.cfg.row g').P v
  obtain ⟨hmore, rfl⟩ | ⟨hlast, rfl⟩ := hnext
  · have hP := Nat.mod_lt (s.ph + 1) (Cfg.wf_row hwf g').1
    rw [deliver_eq hwf hrem hN] at hmore hdel ⊢
    exact hdel.inv hg (Nat.one_le_iff_ne_zero.mpr hmore) (Nat.le_trans (Nat.sub_le _ 1) hN) hP
  · exact segmentDone_inv hwf hdel hlast

theorem exec_decodeTok_inv {w : TokWord} {s t : State} (hwf : s.cfg.wf = true) (hs : s.Inv)
    (hwait : s.fs = FS.payWait) (h : exec (decodeTok w) s = .next t) : t.Inv := by
  have hclean := hs.noFault (by simp [hwait])
  have hread : (s.tokRead w).Inv := hs.log _
  obtain ⟨b, -, rfl⟩ | ⟨x, -, rfl⟩ | ⟨x, -, rfl⟩ | ⟨x, -, rfl⟩ := exec_decodeTok_next hwait h
  · exact startByte_inv hwf (.inl rfl) (by simp) hclean
  · exact startByte_inv hwf (.inr rfl) (fun _ => rfl) hclean
  · exact raiseFault_inv hread (.inr ⟨.inl rfl, hwait⟩)
  · exact raiseFault_inv hread (.inr ⟨.inr rfl, hwait⟩)

/-! ### The statements -/

/-- Settles O28: the reset values are what `ENTRY` leaves. -/
theorem resetKeepsInvariants : Obligations.ResetKeepsInvariants := by
  intro c es hwf
  have h : issue 0b00#2 (State.resetWith c es) = State.resetWith c es := by
    rw [issue_eq (s := State.resetWith c es) hwf]
    rfl
  exact h ▸ issue_preamble_inv (s := State.resetWith c es) hwf (.inl ⟨rfl, rfl⟩) ⟨rfl, rfl⟩

/-- Settles O29: a step is RESET, WFAIL, EMIT, TOKEN or hold, and each keeps the invariants. -/
theorem stepKeepsInvariants : Obligations.StepKeepsInvariants := by
  intro s t hs h
  have hs := hs.passEdge
  obtain ⟨hwf, ⟨-, rfl⟩ | ⟨-, -, hstep⟩⟩ := runEdge_next h
  · exact resetStep_inv hwf
  obtain ⟨hact, -, rfl⟩ | ⟨hact, -, -, hemit⟩ | ⟨hwait, -, htok⟩ | rfl := hstep
  · exact wfail_inv hs hact
  · exact emit_inv hwf hs hact hemit
  · exact exec_decodeTok_inv hwf hs hwait htok
  · exact hs

end Sys2Proof.Machine

/-! PROOF. How an edge can answer (10_state.md R31, 00_scope.md R13): an ill-formed configuration is refused at every edge
and for nothing else, and a state with the invariants always goes on. -/

namespace Sys2Proof.Machine

/-! ### Operations answer a next state -/

theorem tokenStep_answers (w : TokWord) (body : State → State) (s : State) : ∃ t, tokenStep w body s = .next t := by
  unfold tokenStep
  split
  · exact ⟨_, rfl⟩
  · exact ⟨_, rfl⟩

/-- No operation of the table stops (60_exceptions.md R183: a fault of the block is a next state). -/
theorem exec_answers (i : Instr) (s : State) : ∃ t, exec i s = .next t := by
  cases i with
  | tokByte b =>
    rw [exec, execTokByte]
    exact tokenStep_answers ..
  | tokEnd x => exact tokenStep_answers ..
  | tokError x => exact tokenStep_answers ..
  | tokRsvd x => exact tokenStep_answers ..
  | _ => exact ⟨_, rfl⟩

theorem emit_answers {s : State} (hwf : s.cfg.wf = true) (hs : s.Inv) (hact : activeFs s.fs = true) :
    ∃ t, emit s = .next t := by
  obtain ⟨g, v, hg, hv⟩ := hs.exists_sample hwf hact
  rw [emit_eq hg hv]
  split
  · exact ⟨_, rfl⟩
  · exact ⟨_, rfl⟩

theorem emit_refused {s : State} {r : Refusal} (h : emit s = .refused r) : r = .reservedState := by
  unfold emit at h
  split at h
  · exact (Host.Outcome.refused.inj h).symm
  split at h
  · cases h
  · dsimp only at h
    split at h <;> cases h

/-- One edge under a well-formed configuration, its reserved states aside, is EMIT or answers a next state. -/
theorem runEdge_emit_or_answers {e : Edge} {s : State} (hwf : s.cfg.wf = true) :
    (s.legal = false ∧ runEdge e s = .refused .reservedState) ∨ (activeFs s.fs = true ∧ runEdge e s = emit s) ∨
      ∃ t, runEdge e s = .next t := by
  unfold runEdge
  rw [if_neg (by simp [hwf])]
  split
  · exact .inr (.inr ⟨_, rfl⟩)
  split
  case isTrue hlegal => exact .inl ⟨hlegal, rfl⟩
  split
  · exact .inr (.inr ⟨_, rfl⟩)
  split
  case isTrue hemit => exact .inr (.inl ⟨(Bool.and_eq_true_iff.mp hemit).1, rfl⟩)
  split
  · exact .inr (.inr (exec_answers ..))
  · exact .inr (.inr ⟨_, rfl⟩)

/-- Settles O30: the registers hold no reserved code, and where EMIT runs the ROM has the sample. -/
theorem invariantStatesNeverStop : Obligations.InvariantStatesNeverStop := by
  intro s hwf hs
  have hs := hs.passEdge
  obtain ⟨hlegal, -⟩ | ⟨hact, h⟩ | h := runEdge_emit_or_answers (e := s.nextEdge) (s := s.passEdge) hwf
  · exact absurd (hs.legal.symm.trans hlegal) (by decide)
  · obtain ⟨t, ht⟩ := emit_answers (s := s.passEdge) hwf hs hact
    exact ⟨t, h.trans ht⟩
  · exact h

/-! ### Ill-formed configurations -/

/-- `LUT` is total below a period exactly where the sub-table is long enough (R31). -/
theorem lutCovers_eq_false_iff (c : Cfg) (r : Row) :
    c.lutCovers r = false ↔ ∃ k, k < r.P ∧ c.lut r.P k = none := by
  simp only [Cfg.lutCovers, decide_eq_false_iff_not, Nat.not_le]
  constructor
  · exact fun h => ⟨_, h, by simp [Cfg.lut]⟩
  · rintro ⟨k, hk, h⟩
    simp only [Cfg.lut, hk, if_true, List.getElem?_eq_none_iff] at h
    omega

theorem rowOk_eq_false_iff (c : Cfg) (g : Seg) :
    c.rowOk g = false ↔
      (c.row g).P < 1 ∨ 2 ^ c.phW < (c.row g).P ∨ (c.row g).N < 1 ∨ 2 ^ c.remW - 1 < (c.row g).N ∨
      (c.row g).P ≤ (c.row g).K0 ∨ ∃ k, k < (c.row g).P ∧ c.lut (c.row g).P k = none := by
  rw [← lutCovers_eq_false_iff, Cfg.rowOk, Bool.and_eq_false_iff, ← Bool.not_eq_true, Row.wf_iff]
  simp only [not_and_or, Nat.not_le, Nat.not_lt, or_assoc]

theorem wf_eq_false_iff (c : Cfg) : c.wf = false ↔ ∃ g, c.rowOk g = false := by
  rw [← Bool.not_eq_true, Cfg.wf_iff]
  simp

theorem runEdge_illFormedConfig_iff (e : Edge) (s : State) :
    s.cfg.wf = false ↔ runEdge e s = .refused .illFormedConfig := by
  constructor
  · exact fun h => if_pos h
  · intro h
    by_contra hwf
    obtain ⟨-, h'⟩ | ⟨-, h'⟩ | ⟨t, h'⟩ := runEdge_emit_or_answers (e := e) (s := s) (by simpa using hwf)
    · cases h.symm.trans h'
    · cases emit_refused (h'.symm.trans h)
    · cases h.symm.trans h'

/-- Settles O7: `Cfg.wf` fails where a row breaks a condition of R31, and only its failure gives this refusal. -/
theorem illFormedConfigRefused : Obligations.IllFormedConfigRefused := by
  refine ⟨by decide, fun s => ⟨?_, runEdge_illFormedConfig_iff s.nextEdge s.passEdge⟩⟩
  rw [wf_eq_false_iff]
  exact exists_congr (rowOk_eq_false_iff s.cfg)

end Sys2Proof.Machine

/-! PROOF. Which steps write the bit counter, the checksum and the fault registers (10_state.md R22 to R26, R41). EMIT
writes none of them but the bit counter. -/

namespace Sys2Proof.Machine

theorem symbolDone_keeps (s : State) :
    (symbolDone s).cks = s.cks ∧ (symbolDone s).fcode = s.fcode ∧ (symbolDone s).ffs = s.ffs := by
  obtain ⟨-, h⟩ | ⟨-, h⟩ | ⟨-, -, h⟩ | ⟨-, -, h⟩ | ⟨-, -, h⟩ | ⟨-, h⟩ := symbolDone_cases s <;> simp [h]

theorem segmentDone_keeps (s : State) :
    (segmentDone s).cks = s.cks ∧ (segmentDone s).fcode = s.fcode ∧ (segmentDone s).ffs = s.ffs := by
  obtain ⟨-, -, h⟩ | ⟨-, h⟩ := segmentDone_cases s
  · simp [h]
  · rw [h]
    exact symbolDone_keeps s

/-- EMIT writes neither the checksum nor the fault registers. -/
theorem emit_keeps {s t : State} (h : emit s = .next t) : t.cks = s.cks ∧ t.fcode = s.fcode ∧ t.ffs = s.ffs := by
  obtain ⟨g, v, -, -, ⟨-, rfl⟩ | ⟨-, rfl⟩⟩ := emit_next h
  · exact ⟨rfl, rfl, rfl⟩
  · exact segmentDone_keeps (deliver (s.cfg.row g).P v s)

/-- The bit counter counts down from nonzero only. -/
theorem symbolDone_bc (s : State) : (symbolDone s).bc = s.bc ∨ (symbolDone s).bc.toNat + 1 = s.bc.toNat := by
  have countdown : ∀ b : BitVec 3, b ≠ 0#3 → (b - 1#3).toNat + 1 = b.toNat := by decide
  obtain ⟨-, h⟩ | ⟨-, h⟩ | ⟨-, -, h⟩ | ⟨-, -, h⟩ | ⟨-, hb, h⟩ | ⟨-, h⟩ := symbolDone_cases s <;> rw [h]
  · exact .inl rfl
  · exact .inl rfl
  · exact .inl rfl
  · exact .inl rfl
  · exact .inr (countdown _ hb)
  · exact .inl rfl

theorem segmentDone_bc (s : State) : (segmentDone s).bc = s.bc ∨ (segmentDone s).bc.toNat + 1 = s.bc.toNat := by
  obtain ⟨-, -, h⟩ | ⟨-, h⟩ := segmentDone_cases s <;> rw [h]
  · exact .inl rfl
  · exact symbolDone_bc s

theorem emit_bc {s t : State} (h : emit s = .next t) : t.bc = s.bc ∨ t.bc.toNat + 1 = s.bc.toNat := by
  obtain ⟨g, v, -, -, ⟨-, rfl⟩ | ⟨-, rfl⟩⟩ := emit_next h
  · exact .inl rfl
  · exact segmentDone_bc (deliver (s.cfg.row g).P v s)

/-- Settles O32: a token that starts a byte loads 7, EMIT counts down or keeps, RESET clears, the rest keep. -/
theorem bitCounterNeverWraps : Obligations.BitCounterNeverWraps := by
  intro s t h
  obtain ⟨-, ⟨-, rfl⟩ | ⟨-, -, hstep⟩⟩ := runEdge_next h
  · exact .inr (.inr (.inr ⟨rfl, rfl⟩))
  obtain ⟨-, -, rfl⟩ | ⟨-, -, -, hemit⟩ | ⟨hwait, -, htok⟩ | rfl := hstep
  · exact .inl rfl
  · obtain hkeep | hdown := emit_bc hemit
    · exact .inl hkeep
    · exact .inr (.inr (.inl hdown))
  · obtain ⟨b, -, rfl⟩ | ⟨x, -, rfl⟩ | ⟨x, -, rfl⟩ | ⟨x, -, rfl⟩ := exec_decodeTok_next hwait htok
    · exact .inr (.inl ⟨hwait, rfl⟩)
    · exact .inr (.inl ⟨hwait, rfl⟩)
    · exact .inl rfl
    · exact .inl rfl
  · exact .inl rfl

/-- Settles O33: of the tokens only BYTE writes `cks`, of the other steps only RESET. -/
theorem onlyBytesAndResetChangeChecksum : Obligations.OnlyBytesAndResetChangeChecksum := by
  intro s t h
  obtain ⟨-, ⟨-, rfl⟩ | ⟨-, -, hstep⟩⟩ := runEdge_next h
  · exact .inr (.inr ⟨rfl, rfl⟩)
  obtain ⟨-, -, rfl⟩ | ⟨-, -, -, hemit⟩ | ⟨hwait, -, htok⟩ | rfl := hstep
  · exact .inl rfl
  · exact .inl (emit_keeps hemit).1
  · obtain ⟨b, hw, rfl⟩ | ⟨x, -, rfl⟩ | ⟨x, -, rfl⟩ | ⟨x, -, rfl⟩ := exec_decodeTok_next hwait htok
    · exact .inr (.inl ⟨b, hwait, congrArg (fun w => Event.token w :: s.trace) hw, rfl⟩)
    · exact .inl rfl
    · exact .inl rfl
    · exact .inl rfl
  · exact .inl rfl

/-- Settles O34: WFAIL, `TOK.ERROR` and `TOK.RSVD` enter a fault, from a state other than `FAULT`; RESET clears. -/
theorem faultRegisterWriters : Obligations.FaultRegisterWriters := by
  intro s t h
  obtain ⟨-, ⟨-, rfl⟩ | ⟨-, -, hstep⟩⟩ := runEdge_next h
  · exact .inr (.inr ⟨rfl, rfl, rfl⟩)
  obtain ⟨hact, -, rfl⟩ | ⟨-, -, -, hemit⟩ | ⟨hwait, -, htok⟩ | rfl := hstep
  · exact .inr (.inl ⟨ne_fault_of_activeFs hact, rfl, rfl, by simp⟩)
  · exact .inl (emit_keeps hemit).2
  · have hne : s.fs ≠ FS.fault := fun hf => by simp [hf] at hwait
    obtain ⟨b, -, rfl⟩ | ⟨x, -, rfl⟩ | ⟨x, -, rfl⟩ | ⟨x, -, rfl⟩ := exec_decodeTok_next hwait htok
    · exact .inl ⟨rfl, rfl⟩
    · exact .inl ⟨rfl, rfl⟩
    · exact .inr (.inl ⟨hne, rfl, rfl, by simp⟩)
    · exact .inr (.inl ⟨hne, rfl, rfl, by simp⟩)
  · exact .inl ⟨rfl, rfl⟩

/-! ### The default parameters and the reset state -/

/-- Settles O4: the registers are those of `State.resetWith`, and entry 0 of the ROM's period 57 is 127. -/
theorem resetStateValues : Obligations.ResetStateValues := by
  unfold Obligations.ResetStateValues
  decide

/-- Settles O5: both sides are closed terms, the table of R30 and its `Cfg.wf`. -/
theorem defaultParameters : Obligations.DefaultParameters := by
  unfold Obligations.DefaultParameters
  decide

end Sys2Proof.Machine

/-! PROOF. What crosses the ports at one edge (20_memory.md R51, R52) and which input pins an edge reads (R209), with the
checksum barrier of R62: the END token alone starts the trailer. -/

namespace Sys2Proof.Machine

/-! ### One edge, from its pins -/

theorem step_of_edges {s : State} {e : Edge} {es : List Edge} (h : s.edges = e :: es) :
    step s = runEdge e { s with edges := es } := by
  simp [step, State.nextEdge, State.passEdge, h]

theorem inReady_iff (s : State) : s.inReady = true ↔ s.fs = FS.payWait := beq_iff_eq

/-- No sample is on offer while the sequencer waits for a token (10_state.md R34). -/
theorem outValid_of_payWait {s : State} (h : s.fs = FS.payWait) : s.outValid = false := by
  simp [State.outValid, h]

/-- Where the sequencer waits and the source presents a token, the edge runs the word on the pins (R52). -/
theorem runEdge_token {e : Edge} {s : State} (hwf : s.cfg.wf = true) (hlegal : s.legal = true) (hrst : e.rst = false)
    (hwait : s.fs = FS.payWait) (hvalid : e.inValid = true) :
    runEdge e s = exec (decodeTok (tokWord e.inKind e.inData)) s := by
  simp [runEdge, runToken, hwf, hlegal, hrst, outValid_of_payWait hwait, (inReady_iff s).mpr hwait, hvalid]

/-- Where a sample is on offer and the sink accepts it, the edge is EMIT (R51). -/
theorem runEdge_accept {e : Edge} {s : State} (hwf : s.cfg.wf = true) (hlegal : s.legal = true) (hrst : e.rst = false)
    (hvalid : s.outValid = true) (herr : e.outErr = false) (hready : e.outReady = true) :
    runEdge e s = emit s := by
  simp [runEdge, hwf, hlegal, hrst, hvalid, herr, hready]

/-- Settles O9: the edge is the TOKEN step, and a TOK word decodes without refusal. -/
theorem stepRunsDecodedToken : Obligations.StepRunsDecodedToken := by
  intro s e es i hwf hlegal hedges hrst hwait hvalid hdecode _
  obtain rfl : decodeTok (tokWord e.inKind e.inData) = i := Except.ok.inj hdecode
  rw [step_of_edges hedges]
  exact runEdge_token hwf hlegal hrst hwait hvalid

/-! ### The sample on offer -/

/-- `LUT(P, k)` exists for k < P only (20_memory.md R50 (d)). -/
theorem lut_eq_none {c : Cfg} {P k : Nat} (h : P ≤ k) : c.lut P k = none := if_neg (Nat.not_lt.mpr h)

theorem emit_fault {s : State} {g : Seg} (hg : s.seg = some g) (h : s.cfg.lut (s.cfg.row g).P s.ph = none) :
    emit s = .fault (.noLutEntry (s.cfg.row g).P s.ph) := by
  simp only [emit, hg, h]

/-- Settles O19: the edge is EMIT, and the ROM has no entry at or above the period. -/
theorem missingRomEntryFaults : Obligations.MissingRomEntryFaults := by
  intro s e es g hwf hlegal hvalid hedges hrst herr hready hg hph
  rw [step_of_edges hedges, runEdge_accept (s := { s with edges := es }) hwf hlegal hrst hvalid herr hready]
  exact emit_fault (s := { s with edges := es }) hg (lut_eq_none hph)

/-- `out_data` is the sample on offer (R51). -/
theorem outData_eq {s : State} {g : Seg} {v : Byte} (hvalid : s.outValid = true) (hg : s.seg = some g)
    (hv : s.cfg.lut (s.cfg.row g).P s.ph = some v) : s.outData = v := by
  simp [State.outData, State.offered, hvalid, hg, hv]

/-- Settles O27: R35 (a) puts `ph` below the period, where a well-formed ROM has its entry. -/
theorem sampleOnOfferExists : Obligations.SampleOnOfferExists := by
  intro s hwf hs hvalid
  obtain ⟨g, v, hg, hv⟩ := hs.exists_sample hwf hvalid
  exact ⟨g, v, hg, hv, outData_eq hvalid hg hv⟩

/-- EMIT delivers the value on `out_data`. -/
theorem emit_trace {s t : State} (hvalid : s.outValid = true) (h : emit s = .next t) :
    t.trace = .sample s.outData :: s.trace := by
  obtain ⟨g, v, hg, hv, ⟨-, rfl⟩ | ⟨-, rfl⟩⟩ := emit_next h <;> rw [outData_eq hvalid hg hv]
  · rfl
  · exact (segmentDone_frame (deliver (s.cfg.row g).P v s)).2.2

/-! ### What crosses the ports -/

/-- An edge that records an event is the step of that event, at pins that enable it (R51, R52, R206). -/
theorem runEdge_event {e : Edge} {s t : State} {ev : Event} (h : runEdge e s = .next t)
    (hev : t.trace = ev :: s.trace) :
    ev = .reset ∨ ev = .wfail ∨
    (e.rst = false ∧ s.outValid = true ∧ e.outReady = true ∧ e.outErr = false ∧ ev = .sample s.outData) ∨
    (e.rst = false ∧ s.inReady = true ∧ e.inValid = true ∧ ev = .token (tokWord e.inKind e.inData)) := by
  have recorded : ∀ {ev'}, t.trace = ev' :: s.trace → ev = ev' := fun h' => (List.cons.inj (hev.symm.trans h')).1
  obtain ⟨-, ⟨-, rfl⟩ | ⟨hrst, -, hstep⟩⟩ := runEdge_next h
  · exact .inl (recorded rfl)
  obtain ⟨-, -, rfl⟩ | ⟨hvalid, herr, hready, hemit⟩ | ⟨hwait, hvalid, htok⟩ | rfl := hstep
  · exact .inr (.inl (recorded rfl))
  · exact .inr (.inr (.inl ⟨hrst, hvalid, hready, herr, recorded (emit_trace hvalid hemit)⟩))
  · exact .inr (.inr (.inr ⟨hrst, (inReady_iff s).mpr hwait, hvalid, recorded (exec_decodeTok_frame hwait htok).2.2⟩))
  · exact absurd hev (List.cons_ne_self ev _).symm

/-- Settles O24: EMIT alone records a sample, and TOKEN alone a token. -/
theorem portTransactions : Obligations.PortTransactions := by
  intro s t e es hedges h
  rw [step_of_edges hedges] at h
  refine ⟨fun v hv => ?_, fun w hw => ?_⟩
  · obtain hev | hev | ⟨hrst, hvalid, hready, herr, hev⟩ | ⟨-, -, -, hev⟩ := runEdge_event h hv <;> cases hev
    exact ⟨hrst, hvalid, hready, herr, rfl⟩
  · obtain hev | hev | ⟨-, -, -, -, hev⟩ | ⟨hrst, hwait, hvalid, hev⟩ := runEdge_event h hw <;> cases hev
    exact ⟨hrst, hwait, hvalid, rfl⟩

/-! ### The pins an edge ignores -/

/-- Two edges that agree on the pins the block looks at do the same: those of the output port where a sample is on offer,
those of the input port where the sequencer waits. -/
theorem runEdge_congr {e f : Edge} {s : State} (hrst : e.rst = f.rst)
    (hout : e.rst = false → s.outValid = true →
      e.outErr = f.outErr ∧ (e.outErr = false → e.outReady = f.outReady))
    (hin : e.rst = false → s.inReady = true →
      e.inValid = f.inValid ∧ (e.inValid = true → e.inKind = f.inKind ∧ e.inData = f.inData)) :
    runEdge e s = runEdge f s := by
  simp only [runEdge, runToken, ← hrst]
  cases hr : e.rst
  case true => rfl
  cases hvalid : s.outValid
  case true =>
    have hidle : s.inReady = false := by
      rw [← Bool.not_eq_true, inReady_iff]
      exact fun hwait => absurd (outValid_of_payWait hwait) (by simp [hvalid])
    obtain ⟨herr, hready⟩ := hout hr hvalid
    cases he : e.outErr
    case true => simp [← herr, he]
    case false => simp [hidle, ← herr, he, hready he]
  case false =>
    cases hwait : s.inReady
    case false => rfl
    obtain ⟨hoffer, htok⟩ := hin hr hwait
    cases hv : e.inValid
    case false => simp [← hoffer, hv]
    case true =>
      obtain ⟨hkind, hdata⟩ := htok hv
      simp [← hoffer, hv, hkind, hdata]

/-- Settles O21: both steps are one edge from the same state, at edges that agree on the pins it looks at. -/
theorem ignoredPinsDoNotMatter : Obligations.IgnoredPinsDoNotMatter := by
  intro s e f es hrst hout hin
  rw [step_of_edges (s := { s with edges := e :: es }) rfl, step_of_edges (s := { s with edges := f :: es }) rfl]
  exact runEdge_congr hrst hout hin

/-! ### The checksum barrier -/

theorem symbolDone_ne_trlBits {s : State} (hs : s.fs ≠ FS.trlBits) : (symbolDone s).fs ≠ FS.trlBits := by
  obtain ⟨-, h⟩ | ⟨-, h⟩ | ⟨-, -, h⟩ | ⟨-, -, h⟩ | ⟨-, -, h⟩ | ⟨-, h⟩ := symbolDone_cases s <;> simp [h, hs]

theorem segmentDone_ne_trlBits {s : State} (hs : s.fs ≠ FS.trlBits) : (segmentDone s).fs ≠ FS.trlBits := by
  obtain ⟨-, -, h⟩ | ⟨-, h⟩ := segmentDone_cases s <;> rw [h]
  · exact hs
  · exact symbolDone_ne_trlBits hs

/-- EMIT goes on with the trailer but does not start it. -/
theorem emit_ne_trlBits {s t : State} (hs : s.fs ≠ FS.trlBits) (h : emit s = .next t) : t.fs ≠ FS.trlBits := by
  obtain ⟨g, v, -, -, ⟨-, rfl⟩ | ⟨-, rfl⟩⟩ := emit_next h
  · exact hs
  · exact segmentDone_ne_trlBits (s := deliver (s.cfg.row g).P v s) hs

/-- Settles O35: of the tokens only END enters `TRL_BITS`, and no other step does. -/
theorem trailerBarrier : Obligations.TrailerBarrier := by
  intro s t h ht hs
  obtain ⟨-, ⟨-, rfl⟩ | ⟨-, -, hstep⟩⟩ := runEdge_next h
  · exact absurd ht (by simp)
  obtain ⟨-, -, rfl⟩ | ⟨-, -, -, hemit⟩ | ⟨hwait, -, htok⟩ | rfl := hstep
  · exact absurd ht (by simp)
  · exact absurd ht (emit_ne_trlBits (s := s.passEdge) hs hemit)
  · obtain ⟨b, -, rfl⟩ | ⟨x, hw, rfl⟩ | ⟨x, -, rfl⟩ | ⟨x, -, rfl⟩ := exec_decodeTok_next hwait htok
    · exact absurd ht (show FS.payBits ≠ FS.trlBits by decide)
    · exact ⟨hwait, rfl, rfl, x, congrArg (fun w => Event.token w :: s.trace) hw⟩
    · exact absurd ht (by simp)
    · exact absurd ht (by simp)
  · exact absurd ht hs

end Sys2Proof.Machine

/-! PROOF. Determinism (20_memory.md R66) from frame composition (42_framing.md R160): what a run has delivered, followed by
what its registers still have ahead, is the samples of the symbols it has begun, and those are a first part of the frame
of the bytes it has consumed. The timing of the pins is in none of the three. -/

namespace Sys2Proof.Machine

/-! ### Runs -/

/-- What every step keeps, a run keeps. -/
theorem run_keeps {P : State → Prop} (hstep : ∀ s t, P s → step s = .next t → P t) {n : Nat} {s t : State}
    (hs : P s) (h : run n s = .next t) : P t := by
  induction n generalizing s with
  | zero => exact Host.Outcome.next.inj h ▸ hs
  | succ n ih =>
    rw [run_succ] at h
    split at h
    next u hu => exact ih (hstep s u hs hu) h
    next => cases h
    next => cases h

/-- What holds after reset and every step keeps holds of every reachable state. -/
theorem Reachable.invariant {P : State → Prop} (hreset : ∀ c es, c.wf = true → P (State.resetWith c es))
    (hstep : ∀ s t, P s → step s = .next t → P t) {s : State} (hs : Reachable s) : P s := by
  obtain ⟨c, es, n, hwf, h⟩ := hs
  exact run_keeps hstep (hreset c es hwf) h

/-! ### The record of a run -/

theorem runEvents_of_reset {t : State} {l : List Event} (h : t.trace = .reset :: l) : t.runEvents = [] := by
  simp [State.runEvents, h]

theorem runEvents_of_event {s t : State} {ev : Event} (hev : ev ≠ .reset) (h : t.trace = ev :: s.trace) :
    t.runEvents = s.runEvents ++ [ev] := by
  simp [State.runEvents, h, hev]

theorem runSamples_of_event {s t : State} {ev : Event} (hev : ev ≠ .reset) (h : t.trace = ev :: s.trace) :
    t.runSamples = s.runSamples ++ ev.sample?.toList := by
  rw [State.runSamples, runEvents_of_event hev h, List.filterMap_append, State.runSamples]
  cases ev <;> rfl

theorem runTokens_of_event {s t : State} {ev : Event} (hev : ev ≠ .reset) (h : t.trace = ev :: s.trace) :
    t.runTokens = s.runTokens ++ ev.token?.toList := by
  rw [State.runTokens, runEvents_of_event hev h, List.filterMap_append, State.runTokens]
  cases ev <;> rfl

/-- Only a token can add to the bytes consumed. -/
theorem runBytes_of_event {s t : State} {ev : Event} (hev : ev ≠ .reset) (h : t.trace = ev :: s.trace) :
    t.runBytes = s.runBytes ++ ev.token?.toList.filterMap byteOf? := by
  rw [State.runBytes, runTokens_of_event hev h, List.filterMap_append, State.runBytes]

theorem runBytes_of_token {s t : State} {w : TokWord} (h : t.trace = .token w :: s.trace) :
    t.runBytes = s.runBytes ++ (byteOf? w).toList := by
  rw [runBytes_of_event (by simp) h]
  cases hw : byteOf? w <;> simp [Event.token?, hw]

theorem byteOf?_byte (b : Byte) : byteOf? (tokWord 0b00#2 b) = some b := by simp [byteOf?]

theorem byteOf?_of_ne {k : BitVec 2} (hk : k ≠ 0b00#2) (x : Byte) : byteOf? (tokWord k x) = none := by
  simp [byteOf?, hk]

/-! ### The checksum law -/

theorem checksum_append (bs : List Byte) (b : Byte) : checksum (bs ++ [b]) = checksum bs ^^^ b := by
  simp [checksum]

theorem exec_decodeTok_keeps_checksum {w : TokWord} {s t : State} (hs : s.cks = checksum s.runBytes)
    (hwait : s.fs = FS.payWait) (h : exec (decodeTok w) s = .next t) : t.cks = checksum t.runBytes := by
  rw [runBytes_of_token (exec_decodeTok_frame hwait h).2.2]
  obtain ⟨b, rfl, rfl⟩ | ⟨x, rfl, rfl⟩ | ⟨x, rfl, rfl⟩ | ⟨x, rfl, rfl⟩ := exec_decodeTok_next hwait h
  · rw [byteOf?_byte, Option.toList_some, checksum_append, ← hs]
    rfl
  all_goals
    rw [byteOf?_of_ne (by decide), Option.toList_none, List.append_nil, ← hs]
    rfl

/-- Every step keeps `cks` equal to the checksum of the bytes consumed since the last reset (42_framing.md R158). -/
theorem step_keeps_checksum {s t : State} (hs : s.cks = checksum s.runBytes) (h : step s = .next t) :
    t.cks = checksum t.runBytes := by
  obtain ⟨-, ⟨-, rfl⟩ | ⟨-, -, hstep⟩⟩ := runEdge_next h
  · rw [State.runBytes, State.runTokens, runEvents_of_reset rfl]
    rfl
  obtain ⟨-, -, rfl⟩ | ⟨-, -, -, hemit⟩ | ⟨hwait, -, htok⟩ | rfl := hstep
  · rw [runBytes_of_event (s := s) (ev := .wfail) (by simp) rfl]
    simpa [Event.token?] using hs
  · obtain ⟨-, -, v, htrace⟩ := emit_frame hemit
    rw [(emit_keeps hemit).1, runBytes_of_event (s := s) (by simp) htrace]
    simpa [Event.token?] using hs
  · exact exec_decodeTok_keeps_checksum (s := s.passEdge) hs hwait htok
  · exact hs

/-! ### The samples ahead -/

/-- The `n` samples of segment `g` from phase index `k` on (40_dds.md R105). -/
def segRest (c : Cfg) (g : Seg) (k n : Nat) : List Byte :=
  (List.range n).map fun i => (c.lut (c.row g).P ((k + i) % (c.row g).P)).getD 0

/-- The segments of the current symbol after the current one (41_symbols.md R131). -/
def State.segsAhead (s : State) : List Seg := (segs (Sym.ofCode s.sym)).drop (s.sidx.toNat + 1)

/-- The symbols that follow the current one before the sequencer waits or is done (42_framing.md R157): the rest of the
Preamble, or the bits of `sh` below `bc`. -/
def State.symsAhead (s : State) : List Sym :=
  if s.framing = FS.preEntry then [.tapein]
  else if s.framing = FS.payBits ∨ s.framing = FS.trlBits then (bitsyms s.sh).drop (8 - s.bc.toNat)
  else []

/-- The samples still to come before the sequencer waits for a token or is done. -/
def State.ahead (s : State) : List Byte :=
  if activeFs s.framing then
    s.seg.elim [] (fun g => segRest s.cfg g s.ph s.rem) ++
      (s.segsAhead.flatMap (segSamples s.cfg) ++ s.symsAhead.flatMap (symSamples s.cfg))
  else []

theorem symsAhead_of_preEntry {s : State} (h : s.framing = FS.preEntry) : s.symsAhead = [.tapein] := if_pos h

theorem symsAhead_of_preTapein {s : State} (h : s.framing = FS.preTapein) : s.symsAhead = [] := by
  simp [State.symsAhead, h]

theorem symsAhead_of_bits {s : State} (h : s.framing = FS.payBits ∨ s.framing = FS.trlBits) :
    s.symsAhead = (bitsyms s.sh).drop (8 - s.bc.toNat) := by
  obtain h | h := h <;> simp [State.symsAhead, h]

theorem segRest_row (c : Cfg) (g : Seg) : segRest c g (c.row g).K0 (c.row g).N = segSamples c g := rfl

/-- The first of the samples left is the one on offer. -/
theorem segRest_eq_cons {c : Cfg} {g : Seg} {k n : Nat} {v : Byte} (hn : 1 ≤ n)
    (hv : c.lut (c.row g).P k = some v) :
    segRest c g k n = v :: segRest c g ((k + 1) % (c.row g).P) (n - 1) := by
  have hk : k < (c.row g).P := by
    by_contra hk
    simp [lut_eq_none (c := c) (Nat.not_lt.mp hk)] at hv
  obtain ⟨n, rfl⟩ := Nat.exists_eq_add_of_le' hn
  simp [segRest, List.range_succ_eq_map, Nat.mod_eq_of_lt hk, hv, Nat.add_assoc, Nat.add_comm 1]

theorem segsAhead_of_tapein {s : State} (hsym : s.sym = 0b01#2) (hsidx : s.sidx = 0#1) :
    s.segsAhead = [.tapeinB] := by
  rw [State.segsAhead, hsym, hsidx]
  rfl

/-- Only the first segment of `TAPEIN` has another after it. -/
theorem segsAhead_of_not_tapein {s : State} (h : ¬(s.sym = 0b01#2 ∧ s.sidx = 0#1)) : s.segsAhead = [] := by
  have last : ∀ (w : SymWord) (j : BitVec 1), ¬(w = 0b01#2 ∧ j = 0#1) →
      (segs (Sym.ofCode w)).drop (j.toNat + 1) = [] := by decide
  exact last _ _ h

theorem ahead_of_inactive {s : State} (h : activeFs s.framing = false) : s.ahead = [] := by
  simp [State.ahead, h]

theorem ahead_of_rem_zero {s : State} (hact : activeFs s.fs = true) (hrem : s.rem = 0) :
    s.ahead = s.segsAhead.flatMap (segSamples s.cfg) ++ s.symsAhead.flatMap (symSamples s.cfg) := by
  rw [State.ahead, framing_of_activeFs hact, if_pos hact, hrem]
  cases s.seg <;> rfl

theorem ahead_of_seg {s : State} {g : Seg} (hact : activeFs s.fs = true) (hg : s.seg = some g) :
    s.ahead = segRest s.cfg g s.ph s.rem ++
      (s.segsAhead.flatMap (segSamples s.cfg) ++ s.symsAhead.flatMap (symSamples s.cfg)) := by
  rw [State.ahead, framing_of_activeFs hact, if_pos hact, hg]
  rfl

/-- A symbol that is issued is ahead as a whole, before the symbols that were to follow the current one. -/
theorem issue_ahead {s : State} (hwf : s.cfg.wf = true) (hact : activeFs s.fs = true) (w : SymWord) :
    (issue w s).ahead = symSamples s.cfg (Sym.ofCode w) ++ s.symsAhead.flatMap (symSamples s.cfg) := by
  have hsegs : firstSeg (Sym.ofCode w) :: (issue w s).segsAhead = segs (Sym.ofCode w) := by
    show _ :: (segs (Sym.ofCode w)).drop 1 = _
    cases Sym.ofCode w <;> rfl
  rw [ahead_of_seg (s := issue w s) hact (segAt_zero w), issue_ph, issue_rem, Cfg.wf_K0_mod hwf, Cfg.wf_N_mod hwf,
    issue_cfg, segRest_row, ← List.append_assoc, ← List.flatMap_cons, hsegs]
  rfl

/-- The bits of a byte below bit `n` start with bit n − 1 (41_symbols.md R137). -/
theorem bitsyms_drop (b : Byte) {n : BitVec 3} (hn : n ≠ 0#3) :
    (bitsyms b).drop (8 - n.toNat) =
      bitSym (b.getLsbD (n - 1#3).toNat) :: (bitsyms b).drop (8 - (n - 1#3).toNat) := by
  have hmap : bitsyms b = (List.range 8).map fun i => bitSym (b.getLsbD (7 - i)) := rfl
  have hlt : 8 - n.toNat < (bitsyms b).length := by rw [bitsyms_length]; bv_omega
  have hnext : 8 - n.toNat + 1 = 8 - (n - 1#3).toNat := by bv_omega
  have hbit : 7 - (8 - n.toNat) = (n - 1#3).toNat := by bv_omega
  rw [List.drop_eq_getElem_cons hlt, hnext]
  simp only [hmap, List.getElem_map, List.getElem_range, hbit]

theorem ofCode_bitCode (v : Bool) : Sym.ofCode (bitCode v) = bitSym v := by rw [bitCode_eq, ofCode_code]

/-- A byte that starts has its eight bit symbols ahead. -/
theorem startByte_ahead {s : State} {f : BitVec 3} (hwf : s.cfg.wf = true) (hf : f = FS.payBits ∨ f = FS.trlBits)
    (b : Byte) : (startByte f b s).ahead = (bitsyms b).flatMap (symSamples s.cfg) := by
  have hact : activeFs f = true := (activeFs_iff f).mpr (.inr (.inr hf))
  rw [startByte, issue_ahead (s := { s with sh := b, bc := 7#3, fs := f }) hwf hact, ofCode_bitCode]
  have hsyms : { s with sh := b, bc := 7#3, fs := f }.symsAhead = (bitsyms b).drop 1 := by
    obtain rfl | rfl := hf <;> rfl
  rw [hsyms]
  rfl

/-- After reset the whole Preamble is ahead (42_framing.md R151, R152). -/
theorem resetWith_ahead (c : Cfg) (es : List Edge) :
    (State.resetWith c es).ahead = [Sym.entry, .tapein].flatMap (symSamples c) := by
  have hsegs : (State.resetWith c es).segsAhead = [] := rfl
  rw [ahead_of_seg (g := .entry) rfl rfl, hsegs, symsAhead_of_preEntry rfl]
  show segSamples c .entry ++ _ = _
  simp [symSamples, segs, State.resetWith]

theorem resetStep_ahead {s : State} (hwf : s.cfg.wf = true) :
    (resetStep s).ahead = [Sym.entry, .tapein].flatMap (symSamples s.cfg) := by
  rw [resetStep_eq hwf]
  exact resetWith_ahead s.cfg s.edges

/-- EMIT's part for every sample takes one sample off those ahead. -/
theorem deliver_ahead {s : State} {g : Seg} {v : Byte} (hwf : s.cfg.wf = true) (hact : activeFs s.fs = true)
    (hg : s.seg = some g) (hv : s.cfg.lut (s.cfg.row g).P s.ph = some v) (h1 : 1 ≤ s.rem)
    (hN : s.rem ≤ (s.cfg.row g).N) : s.ahead = v :: (deliver (s.cfg.row g).P v s).ahead := by
  rw [ahead_of_seg hact hg, ahead_of_seg (s := deliver (s.cfg.row g).P v s) hact hg, segRest_eq_cons h1 hv,
    deliver_eq hwf h1 hN]
  rfl

/-- The end of a symbol goes on to the symbol that is ahead, if any. -/
theorem symbolDone_ahead {s : State} (hwf : s.cfg.wf = true) (hact : activeFs s.fs = true) :
    (symbolDone s).ahead = s.symsAhead.flatMap (symSamples s.cfg) := by
  have hfr := framing_of_activeFs hact
  have hlast : s.bc = 0#3 → (bitsyms s.sh).drop (8 - s.bc.toNat) = [] := fun h => by rw [h]; rfl
  obtain ⟨hf, e⟩ | ⟨hf, e⟩ | ⟨hf, hbc, e⟩ | ⟨hf, hbc, e⟩ | ⟨hf, hbc, e⟩ | ⟨hoff, -⟩ := symbolDone_cases s
  · rw [symsAhead_of_preEntry (hfr.trans hf), e, issue_ahead (s := { s with fs := FS.preTapein }) hwf rfl,
      symsAhead_of_preTapein rfl]
    rfl
  · rw [symsAhead_of_preTapein (hfr.trans hf), e]
    rfl
  · rw [symsAhead_of_bits (.inl (hfr.trans hf)), hlast hbc, e]
    rfl
  · rw [symsAhead_of_bits (.inr (hfr.trans hf)), hlast hbc, e]
    rfl
  · have hbits : s.framing = FS.payBits ∨ s.framing = FS.trlBits := hfr ▸ hf
    rw [symsAhead_of_bits hbits, bitsyms_drop s.sh hbc, e, issue_ahead (s := { s with bc := s.bc - 1#3 }) hwf hact,
      symsAhead_of_bits (s := { s with bc := s.bc - 1#3 }) hbits, ofCode_bitCode]
    rfl
  · exact absurd (hact.symm.trans hoff) (by decide)

/-- The end of a segment takes nothing off the samples ahead. -/
theorem segmentDone_ahead {s : State} (hwf : s.cfg.wf = true) (hact : activeFs s.fs = true) (hrem : s.rem = 0) :
    (segmentDone s).ahead = s.ahead := by
  rw [ahead_of_rem_zero hact hrem]
  obtain ⟨hsym, hsidx, e⟩ | ⟨hlast, e⟩ := segmentDone_cases s
  · have hlast : (segStart .tapeinB { s with sidx := 1#1 }).segsAhead = [] :=
      segsAhead_of_not_tapein (show ¬(s.sym = 0b01#2 ∧ 1#1 = 0#1) by simp)
    have hg : segAt s.sym 1 = some .tapeinB := (segAt_one s.sym).trans (if_pos hsym)
    rw [e, segsAhead_of_tapein hsym hsidx, ahead_of_seg (s := segStart .tapeinB { s with sidx := 1#1 }) hact hg, hlast,
      segStart_eq (s := { s with sidx := 1#1 }) hwf, segRest_row,
      List.flatMap_singleton]
    rfl
  · rw [e, symbolDone_ahead hwf hact, segsAhead_of_not_tapein hlast]
    rfl

theorem emit_ahead {s t : State} (hwf : s.cfg.wf = true) (hs : s.Inv) (hact : activeFs s.fs = true)
    (h : emit s = .next t) : ∃ v, t.trace = .sample v :: s.trace ∧ s.ahead = v :: t.ahead := by
  obtain ⟨g, hg, h1, hN, -⟩ := hs.activeRange (framing_of_activeFs hact ▸ hact)
  obtain ⟨g', v, hg', hv, hnext⟩ := emit_next h
  obtain rfl : g' = g := Option.some.inj (hg'.symm.trans hg)
  refine ⟨v, ?_⟩
  rw [deliver_ahead hwf hact hg hv h1 hN]
  obtain ⟨-, rfl⟩ | ⟨hlast, rfl⟩ := hnext
  · exact ⟨rfl, rfl⟩
  · rw [segmentDone_ahead (s := deliver (s.cfg.row g').P v s) hwf hact hlast]
    exact ⟨(segmentDone_frame (deliver (s.cfg.row g').P v s)).2.2, rfl⟩

/-! ### The symbols begun -/

/-- The trailer is being sent or is complete. -/
def State.inTrailer (s : State) : Bool := s.framing == FS.trlBits || s.framing == FS.done

/-- The symbols that the Preamble and the tokens consumed so far stand for (42_framing.md R151 to R154). -/
def State.symsBegun (s : State) : List Sym :=
  [.entry, .tapein] ++ s.runBytes.flatMap bitsyms ++ if s.inTrailer then bitsyms s.cks else []

theorem startByte_payBits_inTrailer (b : Byte) (s : State) : (startByte FS.payBits b s).inTrailer = false := rfl

theorem symbolDone_inTrailer {s : State} (hact : activeFs s.fs = true) :
    (symbolDone s).inTrailer = s.inTrailer := by
  have hfr : s.inTrailer = (s.fs == FS.trlBits || s.fs == FS.done) := by
    rw [State.inTrailer, framing_of_activeFs hact]
  obtain ⟨hf, e⟩ | ⟨hf, e⟩ | ⟨hf, -, e⟩ | ⟨hf, -, e⟩ | ⟨-, -, e⟩ | ⟨-, e⟩ := symbolDone_cases s <;> rw [e]
  · rw [hfr, hf]
    rfl
  · rw [hfr, hf]
    rfl
  · rw [hfr, hf]
    rfl
  · rw [hfr, hf]
    rfl
  · rfl

theorem segmentDone_inTrailer {s : State} (hact : activeFs s.fs = true) :
    (segmentDone s).inTrailer = s.inTrailer := by
  obtain ⟨-, -, e⟩ | ⟨-, e⟩ := segmentDone_cases s <;> rw [e]
  · rfl
  · exact symbolDone_inTrailer hact

/-- EMIT does not begin or end the trailer's part of the frame. -/
theorem emit_inTrailer {s t : State} (hact : activeFs s.fs = true) (h : emit s = .next t) :
    t.inTrailer = s.inTrailer := by
  obtain ⟨g, v, -, -, ⟨-, rfl⟩ | ⟨-, rfl⟩⟩ := emit_next h
  · rfl
  · exact segmentDone_inTrailer (s := deliver (s.cfg.row g).P v s) hact

/-- The symbols begun depend on the bytes consumed, the checksum and whether the trailer has begun. -/
theorem symsBegun_congr {s t : State} (hbytes : t.runBytes = s.runBytes) (htrailer : t.inTrailer = s.inTrailer)
    (hcks : t.cks = s.cks) : t.symsBegun = s.symsBegun := by
  rw [State.symsBegun, State.symsBegun, hbytes, htrailer, hcks]

/-- They are a first part of the frame of the bytes consumed, and all of it once the trailer has begun. -/
theorem symsBegun_prefix {s : State} (hcks : s.cks = checksum s.runBytes) :
    s.symsBegun <+: frameSyms s.runBytes ∧ (s.inTrailer = true → s.symsBegun = frameSyms s.runBytes) := by
  rw [State.symsBegun, frameSyms, hcks]
  cases s.inTrailer
  case true => simp
  case false => simp

/-! ### Delivered and ahead make up what has begun -/

/-- The samples delivered since the last reset, and then those ahead, are the samples of the symbols begun. -/
def State.FramePlan (s : State) : Prop :=
  s.runSamples ++ s.ahead = s.symsBegun.flatMap (symSamples s.cfg)

theorem resetWith_framePlan (c : Cfg) (es : List Edge) : (State.resetWith c es).FramePlan := by
  rw [State.FramePlan, resetWith_ahead]
  rfl

theorem resetStep_framePlan {s : State} (hwf : s.cfg.wf = true) : (resetStep s).FramePlan := by
  have hrun : (resetStep s).runEvents = [] := runEvents_of_reset rfl
  rw [State.FramePlan, resetStep_ahead hwf, State.symsBegun, State.runBytes, State.runTokens, State.runSamples, hrun]
  rfl

/-- A fault entry freezes the position in the frame. -/
theorem raiseFault_framePlan {s : State} {code : BitVec 2} (hs : s.FramePlan) (hf : s.fs ≠ FS.fault) :
    (raiseFault code s).FramePlan := by
  have hfr : (raiseFault code s).framing = s.framing := (framing_of_ne_fault hf).symm
  have hahead : (raiseFault code s).ahead = s.ahead := by
    rw [State.ahead, State.ahead, State.symsAhead, State.symsAhead, hfr]
    rfl
  have htrailer : (raiseFault code s).inTrailer = s.inTrailer := by rw [State.inTrailer, State.inTrailer, hfr]
  rw [State.FramePlan, hahead, symsBegun_congr (s := s) (t := raiseFault code s) rfl htrailer rfl]
  exact hs

/-- An event that carries no sample and no data byte leaves the position as it is. -/
theorem log_framePlan {s : State} {ev : Event} (hs : s.FramePlan) (hev : ev ≠ .reset) (hsample : ev.sample? = none)
    (hbyte : ev.token?.toList.filterMap byteOf? = []) : (s.log ev).FramePlan := by
  have hsamples : (s.log ev).runSamples = s.runSamples := by
    rw [runSamples_of_event (s := s) hev rfl, hsample]
    exact List.append_nil _
  have hbytes : (s.log ev).runBytes = s.runBytes := by
    rw [runBytes_of_event (s := s) hev rfl, hbyte, List.append_nil]
  rw [State.FramePlan, hsamples, symsBegun_congr hbytes rfl rfl]
  exact hs

theorem wfail_framePlan {s : State} (hs : s.FramePlan) (hact : activeFs s.fs = true) : (wfail s).FramePlan :=
  raiseFault_framePlan (log_framePlan hs (ev := .wfail) (by simp) rfl rfl) (ne_fault_of_activeFs hact)

theorem emit_framePlan {s t : State} (hwf : s.cfg.wf = true) (hs : s.Inv) (hact : activeFs s.fs = true)
    (hplan : s.FramePlan) (h : emit s = .next t) : t.FramePlan := by
  obtain ⟨v, htrace, hahead⟩ := emit_ahead hwf hs hact h
  have hbytes : t.runBytes = s.runBytes := by
    rw [runBytes_of_event (by simp) htrace]
    exact List.append_nil _
  rw [State.FramePlan, (emit_frame h).1, symsBegun_congr hbytes (emit_inTrailer hact h) (emit_keeps h).1, ← hplan, hahead,
    runSamples_of_event (by simp) htrace]
  simp [Event.sample?]

/-- Where the sequencer waits, all that has begun was delivered. -/
theorem State.FramePlan.runSamples_of_payWait {s : State} (hs : s.FramePlan) (hwait : s.fs = FS.payWait) :
    s.runSamples = ([Sym.entry, .tapein] ++ s.runBytes.flatMap bitsyms).flatMap (symSamples s.cfg) := by
  have hfr : s.framing = FS.payWait := by simp [State.framing, hwait]
  have hplan : s.runSamples ++ s.ahead = s.symsBegun.flatMap (symSamples s.cfg) := hs
  have hahead : s.ahead = [] := ahead_of_inactive (by simp [hfr])
  have htrailer : s.inTrailer = false := by simp [State.inTrailer, hfr]
  simpa [hahead, State.symsBegun, htrailer] using hplan

/-- A byte that starts where all before it was delivered keeps the position, if its bits are what it begins. -/
theorem startByte_framePlan {s : State} {f : BitVec 3} {b : Byte} {ys : List Sym} (hwf : s.cfg.wf = true)
    (hf : f = FS.payBits ∨ f = FS.trlBits) (hsent : s.runSamples = ys.flatMap (symSamples s.cfg))
    (hbegun : (startByte f b s).symsBegun = ys ++ bitsyms b) : (startByte f b s).FramePlan := by
  rw [State.FramePlan, startByte_ahead hwf hf, hbegun, List.flatMap_append, startByte_cfg, ← hsent]
  rfl

theorem exec_decodeTok_framePlan {w : TokWord} {s t : State} (hwf : s.cfg.wf = true) (hwait : s.fs = FS.payWait)
    (hs : s.FramePlan) (h : exec (decodeTok w) s = .next t) : t.FramePlan := by
  have htrace := (exec_decodeTok_frame hwait h).2.2
  have hsamples : t.runSamples = s.runSamples := by
    rw [runSamples_of_event (by simp) htrace]
    exact List.append_nil _
  have hbytes := runBytes_of_token htrace
  have hne : s.fs ≠ FS.fault := by simp [hwait]
  obtain ⟨b, rfl, rfl⟩ | ⟨x, rfl, rfl⟩ | ⟨x, rfl, rfl⟩ | ⟨x, rfl, rfl⟩ := exec_decodeTok_next hwait h
  · refine startByte_framePlan (s := { s.tokRead _ with cks := s.cks ^^^ b }) hwf (.inl rfl)
      (hsamples.trans (hs.runSamples_of_payWait hwait)) ?_
    rw [State.symsBegun, hbytes, byteOf?_byte, startByte_payBits_inTrailer]
    simp
  · refine startByte_framePlan (s := s.tokRead _) hwf (.inr rfl) (hsamples.trans (hs.runSamples_of_payWait hwait)) ?_
    rw [State.symsBegun, hbytes, byteOf?_of_ne (by decide), Option.toList_none, List.append_nil]
    rfl
  · exact raiseFault_framePlan (log_framePlan hs (by simp) rfl (by simp [Event.token?, byteOf?_of_ne])) hne
  · exact raiseFault_framePlan (log_framePlan hs (by simp) rfl (by simp [Event.token?, byteOf?_of_ne])) hne

/-- What the registers and the record agree on in every run: the invariants of R35, the checksum law (R158) and the
position in the frame (R160). -/
structure State.FrameInv (s : State) : Prop where
  inv : s.Inv
  checksumLaw : s.cks = checksum s.runBytes
  plan : s.FramePlan

theorem step_keeps_frameInv {s t : State} (hs : s.FrameInv) (h : step s = .next t) : t.FrameInv := by
  refine ⟨stepKeepsInvariants s t hs.inv h, step_keeps_checksum hs.checksumLaw h, ?_⟩
  have hinv := hs.inv.passEdge
  have hplan : s.passEdge.FramePlan := hs.plan
  obtain ⟨hwf, ⟨-, rfl⟩ | ⟨-, -, hstep⟩⟩ := runEdge_next h
  · exact resetStep_framePlan hwf
  obtain ⟨hact, -, rfl⟩ | ⟨hact, -, -, hemit⟩ | ⟨hwait, -, htok⟩ | rfl := hstep
  · exact wfail_framePlan hplan hact
  · exact emit_framePlan hwf hinv hact hplan hemit
  · exact exec_decodeTok_framePlan hwf hwait hplan htok
  · exact hplan

theorem Reachable.frameInv {s : State} (hs : Reachable s) : s.FrameInv :=
  hs.invariant (fun c es hwf => ⟨resetKeepsInvariants c es hwf, rfl, resetWith_framePlan c es⟩)
    (fun _ _ => step_keeps_frameInv)

/-! ### The frame of the bytes consumed -/

/-- Whatever the timing, what was delivered is a first part of the frame of the bytes consumed (42_framing.md R160). -/
theorem Reachable.runSamples_prefix {s : State} (hs : Reachable s) : s.runSamples <+: frameSamples s.cfg s.runBytes :=
  calc s.runSamples <+: s.runSamples ++ s.ahead := List.prefix_append ..
    _ = s.symsBegun.flatMap (symSamples s.cfg) := hs.frameInv.plan
    _ <+: frameSamples s.cfg s.runBytes := (symsBegun_prefix hs.frameInv.checksumLaw).1.flatMap _

/-- In `DONE` it is the whole frame. -/
theorem Reachable.runSamples_of_done {s : State} (hs : Reachable s) (hdone : s.fs = FS.done) :
    s.runSamples = frameSamples s.cfg s.runBytes := by
  have hfr : s.framing = FS.done := by simp [State.framing, hdone]
  have hahead : s.ahead = [] := ahead_of_inactive (by simp [hfr])
  have hbegun := (symsBegun_prefix hs.frameInv.checksumLaw).2 (by simp [State.inTrailer, hfr])
  have hplan : s.runSamples ++ s.ahead = _ := hs.frameInv.plan
  rw [hahead, List.append_nil, hbegun] at hplan
  exact hplan

/-- Settles O42: equal tokens hold equal bytes, and so both runs are parts of one frame. -/
theorem sameTokensSameSamples : Obligations.SameTokensSameSamples := by
  intro s t hs ht hcfg htokens
  have hframe : frameSamples t.cfg t.runBytes = frameSamples s.cfg s.runBytes := by
    rw [State.runBytes, State.runBytes, htokens, hcfg]
  constructor
  · exact List.prefix_or_prefix_of_prefix hs.runSamples_prefix (hframe ▸ ht.runSamples_prefix)
  · intro hsdone htdone
    rw [hs.runSamples_of_done hsdone, ht.runSamples_of_done htdone, hframe]

end Sys2Proof.Machine

/-! PROOF. Encodings (30_encoding.md): the STATUS word (R84), the configuration descriptor (R86), and the SYM and SEG
codes that the block forms itself (R88), with the effect of a BYTE token. A segment that starts loads `ph` and `rem`, so
what an EMIT step leaves in these two registers does not reach the operation it runs next. -/

namespace Sys2Proof.Machine

/-! ### The STATUS word -/

/-- The STATUS word as a number: each field above the next (30_encoding.md R84). -/
theorem status_toNat (s : State) :
    s.status.toNat = s.ffs.toNat * 2 ^ 5 + s.fcode.toNat * 2 ^ 3 + s.fs.toNat := by
  have hhigh : (s.ffs ++ s.fcode).toNat = s.ffs.toNat * 2 ^ 2 + s.fcode.toNat := by
    rw [BitVec.toNat_append, ← Nat.shiftLeft_add_eq_or_of_lt s.fcode.isLt, Nat.shiftLeft_eq]
  rw [State.status, BitVec.toNat_append, ← Nat.shiftLeft_add_eq_or_of_lt s.fs.isLt, Nat.shiftLeft_eq, hhigh]
  omega

/-- Each field of STATUS is read back at its place (R84). -/
theorem status_fields (s : State) :
    s.status.extractLsb' 0 3 = s.fs ∧ s.status.extractLsb' 3 2 = s.fcode ∧ s.status.extractLsb' 5 3 = s.ffs := by
  rw [State.status]
  refine ⟨BitVec.extractLsb'_append_eq_right, ?_, ?_⟩
  · rw [BitVec.extractLsb'_append_eq_of_le (by decide)]
    exact BitVec.extractLsb'_append_eq_right
  · rw [BitVec.extractLsb'_append_eq_of_le (by decide)]
    exact BitVec.extractLsb'_append_eq_left

/-- Settles O25: the formula is that of a concatenation, and the four examples are closed terms. -/
theorem statusLayout : Obligations.StatusLayout :=
  ⟨fun s => ⟨status_toNat s, status_fields s⟩, by decide, by decide, by decide, by decide⟩

/-! ### The configuration descriptor -/

/-- A field of `n` bits below a field of `m` bits fills `m + n` bits. -/
theorem packed_lt {a b m n : Nat} (ha : a < 2 ^ m) (hb : b < 2 ^ n) : a * 2 ^ n + b < 2 ^ (m + n) :=
  calc a * 2 ^ n + b < (a + 1) * 2 ^ n := by rw [Nat.succ_mul]; omega
    _ ≤ 2 ^ m * 2 ^ n := Nat.mul_le_mul_right _ ha
    _ = 2 ^ (m + n) := (Nat.pow_add ..).symm

/-- The field above `n` bits is read back by a shift. -/
theorem packed_div {a b n : Nat} (hb : b < 2 ^ n) : (a * 2 ^ n + b) / 2 ^ n = a := by
  rw [Nat.mul_comm, Nat.mul_add_div (Nat.two_pow_pos n), Nat.div_eq_of_lt hb, Nat.add_zero]

/-- The field of the low `n` bits is read back by a mask. -/
theorem packed_mod {a b n : Nat} (hb : b < 2 ^ n) : (a * 2 ^ n + b) % 2 ^ n = b := by
  rw [Nat.mul_add_mod', Nat.mod_eq_of_lt hb]

/-- Settles O3: a well-formed row fits the widths of its three fields, P the width `PH_W + 1` because P = 2 ^ PH_W is
well-formed too. -/
theorem descriptorReadsBack : Obligations.DescriptorReadsBack := by
  intro phW remW r hwf
  obtain ⟨-, hPle, -, hNle, hK0⟩ := (Row.wf_iff phW remW r).mp hwf
  have hP : r.P < 2 ^ (phW + 1) := Nat.lt_of_le_of_lt hPle (Nat.pow_lt_pow_succ Nat.one_lt_two)
  have hN : r.N < 2 ^ remW := Nat.lt_of_le_pred (Nat.two_pow_pos remW) hNle
  have hK : r.K0 < 2 ^ phW := Nat.lt_of_lt_of_le hK0 hPle
  constructor
  · exact packed_lt (packed_lt hP hN) hK
  · simp only [Row.ofDescriptor, Row.descriptor, Nat.pow_add 2 phW remW, ← Nat.div_div_eq_div_mul, packed_div hK,
      packed_mod hK, packed_div hN, packed_mod hN, Nat.mod_eq_of_lt hP]

/-! ### The operations of SYM and SEG words -/

/-- The operation a SYM word decodes to is `issue` of that word (41_symbols.md R130). -/
theorem exec_of_decode_sym {y : Sym} {i : Instr} (h : decode (.sym y.code) = .ok i) (s : State) :
    exec i s = .next (issue y.code s) := by
  obtain rfl : decodeSym y.code = i := Except.ok.inj h
  cases y <;> rfl

/-- The operation a SEG word decodes to is `seg_start` of its segment (40_dds.md R103). -/
theorem exec_of_decode_seg {g : Seg} {i : Instr} (h : decode (.seg g.code) = .ok i) (s : State) :
    exec i s = .next (segStart g s) := by
  cases g <;> (obtain rfl := Except.ok.inj h; rfl)

/-- A symbol runs its first segment (41_symbols.md R130). -/
theorem issue_code (y : Sym) (s : State) :
    issue y.code s = segStart (firstSeg y) { s with sym := y.code, sidx := 0#1 } := by
  rw [issue, ofCode_code]

/-- `seg_start` loads `ph` and `rem` and does not read them (40_dds.md R103). -/
theorem segStart_congr {s t : State} (g : Seg)
    (h : { s with ph := 0, rem := 0 } = { t with ph := 0, rem := 0 }) : segStart g s = segStart g t :=
  calc segStart g s = segStart g { s with ph := 0, rem := 0 } := rfl
    _ = segStart g { t with ph := 0, rem := 0 } := congrArg _ h
    _ = segStart g t := rfl

/-- Nor does `issue`, which ends with `seg_start` (41_symbols.md R130). -/
theorem issue_congr {s t : State} (w : SymWord)
    (h : { s with ph := 0, rem := 0 } = { t with ph := 0, rem := 0 }) : issue w s = issue w t :=
  segStart_congr _ (congrArg (fun u : State => { u with sym := w, sidx := 0#1 }) h)

/-- A byte that starts runs the bit symbol of its bit 7 (42_framing.md R153, R154). -/
theorem startByte_eq_issue (f : BitVec 3) (b : Byte) (s : State) :
    startByte f b s = issue (bitSym (b.getLsbD 7)).code { s with sh := b, bc := 7#3, fs := f } := by
  rw [startByte, bitCode_eq]

/-- RESET leaves what `ENTRY` leaves when it is run on the reset registers (42_framing.md R151). -/
theorem resetStep_eq_issue (s : State) :
    resetStep s = issue 0b00#2 { State.resetWith s.cfg s.edges with trace := .reset :: s.trace } := rfl

theorem runEdge_reset {e : Edge} {s : State} (hwf : s.cfg.wf = true) (hrst : e.rst = true) :
    runEdge e s = .next (resetStep s) := by
  simp [runEdge, hwf, hrst]

/-! ### The EMIT step that ends a segment -/

theorem symbolDone_of_bits {s : State} (hf : s.fs = FS.payBits ∨ s.fs = FS.trlBits) (hbc : s.bc ≠ 0#3) :
    symbolDone s = issue (bitSym (s.sh.getLsbD (s.bc.toNat - 1))).code { s with bc := s.bc - 1#3 } := by
  have hprev : (s.bc - 1#3).toNat = s.bc.toNat - 1 := by bv_omega
  have hbit : bitCode ({ s with bc := s.bc - 1#3 }.bit) = (bitSym (s.sh.getLsbD (s.bc.toNat - 1))).code := by
    rw [bitCode_eq, State.bit, hprev]
  rw [← hbit]
  obtain hf | hf := hf <;> simp [symbolDone, hf, hbc]

/-- Outside the Tape-in marker the symbol is not `TAPEIN` (R35 (b)), so its segment is the last one. -/
theorem State.ActiveInv.segmentDone_eq {s : State} (h : s.ActiveInv) (hf : s.fs ≠ FS.preTapein) :
    segmentDone s = symbolDone s := by
  obtain ⟨hsym, -⟩ | ⟨-, hdone⟩ := segmentDone_cases s
  · exact absurd (h.fs_of_tapein hsym) hf
  · exact hdone

theorem State.ActiveInv.segmentDone_of_preEntry {s : State} (h : s.ActiveInv) (hf : s.fs = FS.preEntry) :
    segmentDone s = issue 0b01#2 { s with fs := FS.preTapein } :=
  (h.segmentDone_eq (by simp [hf])).trans (if_pos hf)

theorem State.ActiveInv.segmentDone_of_preTapein {s : State} (h : s.ActiveInv) (hf : s.fs = FS.preTapein)
    (hsidx : s.sidx = 0#1) : segmentDone s = segStart .tapeinB { s with sidx := 1#1 } := by
  obtain ⟨-, -, hnext⟩ | ⟨hne, -⟩ := segmentDone_cases s
  · exact hnext
  · exact absurd ⟨h.symTapein hf, hsidx⟩ hne

theorem State.ActiveInv.segmentDone_of_bits {s : State} (h : s.ActiveInv)
    (hf : s.fs = FS.payBits ∨ s.fs = FS.trlBits) (hbc : s.bc ≠ 0#3) :
    segmentDone s = issue (bitSym (s.sh.getLsbD (s.bc.toNat - 1))).code { s with bc := s.bc - 1#3 } :=
  (h.segmentDone_eq (by obtain hf | hf := hf <;> simp [hf])).trans (symbolDone_of_bits hf hbc)

/-- EMIT of the last sample of a segment delivers it and completes the segment (40_dds.md R104). -/
theorem emit_of_last {s : State} {g : Seg} {v : Byte} (hwf : s.cfg.wf = true) (hg : s.seg = some g)
    (hv : s.cfg.lut (s.cfg.row g).P s.ph = some v) (hrem : s.rem = 1) :
    emit s = .next (segmentDone (deliver (s.cfg.row g).P v s)) := by
  obtain ⟨-, -, hN, -, -⟩ := Cfg.wf_row hwf g
  have hlast : (deliver (s.cfg.row g).P v s).rem = 0 := by
    rw [deliver_eq hwf (by omega) (by omega), hrem]
  rw [emit_eq hg hv, if_pos hlast]

/-- The clock edge at which the sink accepts the last sample of a segment. -/
theorem step_of_last {s : State} {e : Edge} {es : List Edge} {g : Seg} {v : Byte} (hwf : s.cfg.wf = true)
    (hs : s.Inv) (hvalid : s.outValid = true) (hedges : s.edges = e :: es) (hrst : e.rst = false)
    (herr : e.outErr = false) (hready : e.outReady = true) (hrem : s.rem = 1) (hg : s.seg = some g)
    (hoffer : s.offered = some v) :
    step s = .next (segmentDone (deliver (s.cfg.row g).P v { s with edges := es })) := by
  have hv : s.cfg.lut (s.cfg.row g).P s.ph = some v := by
    rw [State.offered, hg] at hoffer
    exact hoffer
  rw [step_of_edges hedges,
    runEdge_accept (s := { s with edges := es }) hwf hs.legal hrst hvalid herr hready]
  exact emit_of_last (s := { s with edges := es }) hwf hg hv hrem

/-- Settles O10: each clause is the equation of the step and the operation of the code it forms; the two sides of a
clause differ in `ph` and `rem` at most, which `seg_start` loads. -/
theorem stepRunsInternalCodes : Obligations.StepRunsInternalCodes := by
  refine ⟨?emit, ?reset, ?byte, ?endOfStream, ?symbol⟩
  case emit =>
    intro s e es g v hwf hs hvalid hedges hrst herr hready hrem hg hoffer
    have hpass : { s with edges := es }.ActiveInv := { hs.activeInv hvalid with }
    have hinv := hpass.deliver (s.cfg.row g).P v
    rw [step_of_last hwf hs hvalid hedges hrst herr hready hrem hg hoffer]
    refine ⟨fun hf => ?_, fun hf hsidx => ?_, fun hf hbc i hi => ?_⟩
    · rw [hinv.segmentDone_of_preEntry hf, exec_of_decode_sym (y := .tapein) (i := .tapein) rfl]
      exact congrArg _ (issue_congr _ rfl)
    · rw [hinv.segmentDone_of_preTapein hf hsidx, exec_of_decode_seg (g := .tapeinB) (i := .segTapeinB) rfl]
      exact congrArg _ (segStart_congr _ rfl)
    · rw [hinv.segmentDone_of_bits hf hbc, exec_of_decode_sym hi]
      exact congrArg _ (issue_congr _ rfl)
  case reset =>
    intro s e es hwf hedges hrst
    rw [step_of_edges hedges, runEdge_reset (s := { s with edges := es }) hwf hrst, resetStep_eq_issue]
    rfl
  case byte =>
    intro s b i hwait hi
    rw [exec_tokByte_of_payWait hwait, startByte_eq_issue, exec_of_decode_sym hi]
    rfl
  case endOfStream =>
    intro s x i hwait hi
    rw [exec_tokEnd_of_payWait hwait, startByte_eq_issue, exec_of_decode_sym hi]
    rfl
  case symbol =>
    intro s y i j hi hj
    rw [exec_of_decode_sym hi, exec_of_decode_seg hj, issue_code]

/-! ### The BYTE token -/

theorem bitCode_eq_ite (v : Bool) : bitCode v = if v then 0b11#2 else 0b10#2 := by cases v <;> rfl

theorem firstSeg_bitCode (v : Bool) : firstSeg (Sym.ofCode (bitCode v)) = if v then .bit1 else .bit0 := by
  cases v <;> rfl

/-- A byte that starts, under a well-formed configuration: the row of its bit 7 is loaded as it is. -/
theorem startByte_eq {s : State} (hwf : s.cfg.wf = true) (f : BitVec 3) (b : Byte) :
    startByte f b s =
      { s with sh := b, bc := 7#3, fs := f, sym := if b.getLsbD 7 then 0b11#2 else 0b10#2, sidx := 0#1,
               ph := (s.cfg.row (if b.getLsbD 7 then .bit1 else .bit0)).K0,
               rem := (s.cfg.row (if b.getLsbD 7 then .bit1 else .bit0)).N } := by
  rw [startByte, issue_eq (s := { s with sh := b, bc := 7#3, fs := f }) hwf, firstSeg_bitCode, bitCode_eq_ite]

/-- Where the sequencer does not wait, a TOKEN step changes nothing (20_memory.md R52; log 7). -/
theorem tokenStep_of_ne_payWait {w : TokWord} {body : State → State} {s : State} (h : s.fs ≠ FS.payWait) :
    tokenStep w body s = .next s := if_neg fun hready => h ((inReady_iff s).mp hready)

/-- Settles O13: in `PAY_WAIT` the byte starts after the checksum has taken it in; elsewhere the step is not enabled. -/
theorem tokByteEffect : Obligations.TokByteEffect := by
  intro s b hwf
  refine ⟨?word, fun hwait => ?payWait, fun hne => ?elsewhere⟩
  case word => exact (tokWord_toNat 0b00#2 b).trans (by simp)
  case payWait =>
    rw [exec_tokByte_of_payWait hwait,
      startByte_eq (s := { s.tokRead (tokWord 0b00#2 b) with cks := s.cks ^^^ b }) hwf]
    rfl
  case elsewhere => rw [exec, execTokByte, tokenStep_of_ne_payWait hne]

end Sys2Proof.Machine

/-! PROOF. Segments (40_dds.md §4): what `seg_start` leaves (R103), and the sample sequence of a segment (R105). The
states inside a segment have a closed form, `State.inSegment`; EMIT goes from each to the next, and the last sample
completes the segment (R104). -/

namespace Sys2Proof.Machine

/-! ### The start of a segment -/

theorem offered_eq {s : State} {g : Seg} {v : Byte} (hg : s.seg = some g)
    (hv : s.cfg.lut (s.cfg.row g).P s.ph = some v) : s.offered = some v := by
  simp only [State.offered, hg, hv]

/-- Settles O12: `seg_start` loads the row as it is, and a well-formed ROM has the entry for K0. -/
theorem segmentStartEffect : Obligations.SegmentStartEffect := by
  intro s g i hwf hi
  refine ⟨segStart g s, exec_of_decode_seg hi s, segStart_eq hwf g, fun hg hact => ?_⟩
  obtain ⟨-, -, -, -, hK0⟩ := Cfg.wf_row hwf g
  obtain ⟨v, hv⟩ := Cfg.wf_lut hwf g hK0
  have hstart : (segStart g s).cfg.lut ((segStart g s).cfg.row g).P (segStart g s).ph = some v := by
    rw [segStart_eq hwf]
    exact hv
  exact ⟨v, hv, offered_eq (s := segStart g s) hg hstart, outData_eq (s := segStart g s) hact hg hstart⟩

/-! ### The states inside a segment -/

/-- The sink accepts at this edge and the host does not reset (20_memory.md R51). -/
def Edge.Accepts (e : Edge) : Prop := e.rst = false ∧ e.outErr = false ∧ e.outReady = true

/-- The state after `seg_start(g)` and `m` accepted samples of the segment `g`, before what follows its last sample:
`ph` by 10_state.md R28, `rem` counts the samples left, and the record has grown by the samples delivered. -/
def State.inSegment (g : Seg) (m : Nat) (s : State) : State :=
  { s with ph := ((s.cfg.row g).K0 + m) % (s.cfg.row g).P, rem := (s.cfg.row g).N - m, edges := s.edges.drop m,
           trace := ((segRest s.cfg g (s.cfg.row g).K0 m).map Event.sample).reverse ++ s.trace }

theorem segStart_eq_inSegment {s : State} (hwf : s.cfg.wf = true) (g : Seg) : segStart g s = s.inSegment g 0 := by
  obtain ⟨-, -, -, -, hK0⟩ := Cfg.wf_row hwf g
  rw [segStart_eq hwf]
  simp [State.inSegment, segRest, Nat.mod_eq_of_lt hK0]

/-- One sample more of a segment is the next value of R105 after those before it. -/
theorem segRest_succ (c : Cfg) (g : Seg) (k n : Nat) :
    segRest c g k (n + 1) = segRest c g k n ++ [(c.lut (c.row g).P ((k + n) % (c.row g).P)).getD 0] := by
  simp [segRest, List.range_succ]

/-! ### One accepting edge -/

/-- EMIT's part for every sample goes from one point of a segment to the next. -/
theorem deliver_inSegment {s : State} {g : Seg} {m : Nat} {v : Byte} (hwf : s.cfg.wf = true)
    (hm : m < (s.cfg.row g).N) (hv : s.cfg.lut (s.cfg.row g).P (s.inSegment g m).ph = some v) :
    deliver (s.cfg.row g).P v { s.inSegment g m with edges := s.edges.drop (m + 1) } = s.inSegment g (m + 1) := by
  have hdeliver := deliver_eq (s := { s.inSegment g m with edges := s.edges.drop (m + 1) }) (g := g) (v := v) hwf
    (Nat.sub_pos_of_lt hm) (Nat.sub_le ..)
  have hv' : s.cfg.lut (s.cfg.row g).P (((s.cfg.row g).K0 + m) % (s.cfg.row g).P) = some v := hv
  refine hdeliver.trans ?_
  simp [State.inSegment, segRest_succ, hv', Nat.add_assoc, Nat.sub_sub]

/-- An accepting edge where a sample is on offer delivers it, and EMIT completes the segment if it was the last
(R104). -/
theorem step_of_accept {s u : State} {e : Edge} {es : List Edge} {g : Seg} {v : Byte} (hwf : s.cfg.wf = true)
    (hlegal : s.legal = true) (hact : activeFs s.fs = true) (hedges : s.edges = e :: es) (haccept : e.Accepts)
    (hg : s.seg = some g) (hv : s.cfg.lut (s.cfg.row g).P s.ph = some v)
    (hu : deliver (s.cfg.row g).P v { s with edges := es } = u) :
    step s = .next (if u.rem = 0 then segmentDone u else u) := by
  obtain ⟨hrst, herr, hready⟩ := haccept
  have hemit := emit_eq (s := { s with edges := es }) hg hv
  rw [step_of_edges hedges, runEdge_accept (s := { s with edges := es }) hwf hlegal hrst hact herr hready, hemit, hu]
  split <;> rfl

/-- The edge at which the sink accepts sample `m` of the segment. -/
theorem step_inSegment {s : State} {g : Seg} {m : Nat} {e : Edge} (hwf : s.cfg.wf = true) (hlegal : s.legal = true)
    (hact : activeFs s.fs = true) (hg : s.seg = some g) (hm : m < (s.cfg.row g).N) (he : s.edges[m]? = some e)
    (haccept : e.Accepts) :
    step (s.inSegment g m) = .next (if (s.cfg.row g).N - (m + 1) = 0 then segmentDone (s.inSegment g (m + 1))
      else s.inSegment g (m + 1)) := by
  obtain ⟨hlt, rfl⟩ := List.getElem?_eq_some_iff.mp he
  obtain ⟨v, hv⟩ := Cfg.wf_lut hwf g (k := (s.inSegment g m).ph) (Nat.mod_lt _ (Cfg.wf_row hwf g).1)
  exact step_of_accept (s := s.inSegment g m) hwf hlegal hact (List.drop_eq_getElem_cons hlt) haccept hg hv
    (deliver_inSegment hwf hm hv)

/-! ### The run of a segment -/

theorem run_succ_of_run {n : Nat} {s t : State} (h : run n s = .next t) : run (n + 1) s = step t := by
  rw [run_add, h]
  show run 1 t = step t
  rw [run_succ]
  cases step t <;> rfl

/-- `m` accepting edges from `seg_start`, fewer than the segment has samples. -/
theorem run_inSegment {s : State} {g : Seg} (hwf : s.cfg.wf = true) (hlegal : s.legal = true)
    (hact : activeFs s.fs = true) (hg : s.seg = some g)
    (haccept : ∀ m < (s.cfg.row g).N, ∃ e, s.edges[m]? = some e ∧ e.Accepts) {m : Nat} (hm : m < (s.cfg.row g).N) :
    run m (segStart g s) = .next (s.inSegment g m) := by
  induction m with
  | zero => rw [run_zero, segStart_eq_inSegment hwf]
  | succ m ih =>
    obtain ⟨e, he, haccept⟩ := haccept m (by omega)
    rw [run_succ_of_run (ih (by omega)), step_inSegment hwf hlegal hact hg (by omega) he haccept, if_neg (by omega)]

/-- Settles O37: before edge m < N the run is at point m of the segment; the edge at point N − 1 completes the segment,
and what EMIT does then leaves the record and the pins to come alone. -/
theorem segmentDeliversSequence : Obligations.SegmentDeliversSequence := by
  intro s g i acc es hwf hlegal hact hg hi hlen hacc hedges
  have haccept : ∀ m < (s.cfg.row g).N, ∃ e, s.edges[m]? = some e ∧ e.Accepts := fun m hm =>
    ⟨acc[m], by rw [hedges, List.getElem?_append_left (by omega), List.getElem?_eq_getElem],
      hacc _ (List.getElem_mem _)⟩
  have hrun {m : Nat} (hm : m < (s.cfg.row g).N) := run_inSegment hwf hlegal hact hg haccept hm
  refine ⟨_, exec_of_decode_seg hi s, fun m hm => ⟨_, hrun hm, rfl, rfl, hg⟩, ?_⟩
  obtain ⟨-, -, hN, -, -⟩ := Cfg.wf_row hwf g
  obtain ⟨n, hn⟩ := Nat.exists_eq_add_of_le' hN
  obtain ⟨e, he, hlast⟩ := haccept n (by omega)
  obtain ⟨-, hedge, htrace⟩ := segmentDone_frame (s.inSegment g (n + 1))
  refine ⟨segmentDone (s.inSegment g (n + 1)), ?_, hedge.trans ?_, htrace.trans ?_⟩
  · rw [hn, run_succ_of_run (hrun (by omega)), step_inSegment hwf hlegal hact hg (by omega) he hlast, if_pos (by omega)]
  · show s.edges.drop (n + 1) = es
    rw [hedges, ← hn, ← hlen, List.drop_left]
  · rw [← segRest_row, hn]
    rfl

end Sys2Proof.Machine

/-! PROOF. What the sine ROM delivers (40_dds.md R101, R107) and the values of `SINQ` in exact real arithmetic (R100). A
step delivers entries of the ROM only, so a range of the entries is a range of the samples. -/

namespace Sys2Proof.Machine

/-! ### Reading the ROM -/

theorem lt_of_lut_eq_some {c : Cfg} {P k : Nat} {v : Byte} (h : c.lut P k = some v) : k < P := by
  by_contra hk
  simp [lut_eq_none (c := c) (Nat.not_lt.mp hk)] at h

/-- What the ROM delivers stands at its phase index in the sub-table of its period (10_state.md R32). -/
theorem exists_table_of_lut {c : Cfg} {P k : Nat} {v : Byte} (h : c.lut P k = some v) :
    ∃ t ∈ c.sine, t.1 = P ∧ (v, k) ∈ t.2.zipIdx := by
  rw [Cfg.lut, if_pos (lt_of_lut_eq_some h), Cfg.sineOf] at h
  cases hfind : c.sine.find? (fun t => t.1 == P) with
  | none => simp [hfind] at h
  | some t =>
    have hperiod := List.find?_some hfind
    exact ⟨t, List.mem_of_find?_eq_some hfind, beq_iff_eq.mp hperiod,
      List.mem_zipIdx_iff_getElem?.mpr (by simpa [hfind] using h)⟩

/-- A step that delivers a sample is EMIT, so the sample is an entry of the ROM for a period of `CFG` (R104). -/
theorem lut_of_step_sample {s t : State} {v : Byte} (h : step s = .next t) (htrace : t.trace = .sample v :: s.trace) :
    ∃ g, s.cfg.lut (s.cfg.row g).P s.ph = some v := by
  obtain ⟨-, ⟨-, rfl⟩ | ⟨-, -, hstep⟩⟩ := runEdge_next h
  · cases htrace
  obtain ⟨-, -, rfl⟩ | ⟨hvalid, -, -, hemit⟩ | ⟨hwait, -, htok⟩ | rfl := hstep
  · cases htrace
  · obtain ⟨g, w, hg, hw, -⟩ := emit_next hemit
    have hdelivered := (emit_trace hvalid hemit).symm.trans htrace
    rw [outData_eq hvalid hg hw] at hdelivered
    cases hdelivered
    exact ⟨g, hw⟩
  · cases (exec_decodeTok_frame hwait htok).2.2.symm.trans htrace
  · exact absurd htrace (List.cons_ne_self _ _).symm

/-! ### The entries of the default ROM -/

theorem defaultCfg_lut_le_254 {P k : Nat} {v : Byte} (h : defaultCfg.lut P k = some v) : v.toNat ≤ 254 := by
  have hall : ∀ t ∈ defaultCfg.sine, ∀ x ∈ t.2.zipIdx, x.1.toNat ≤ 254 := by decide
  obtain ⟨t, ht, -, hx⟩ := exists_table_of_lut h
  exact hall t ht _ hx

theorem defaultCfg_lut_eq_254_iff (P k : Nat) : defaultCfg.lut P k = some 254#8 ↔ P = 44 ∧ k = 11 := by
  have hall : ∀ t ∈ defaultCfg.sine, ∀ x ∈ t.2.zipIdx, x.1 = 254#8 → t.1 = 44 ∧ x.2 = 11 := by decide
  constructor
  · intro h
    obtain ⟨t, ht, rfl, hx⟩ := exists_table_of_lut h
    exact hall t ht _ hx rfl
  · rintro ⟨rfl, rfl⟩
    decide

theorem defaultCfg_lut_eq_0_iff (P k : Nat) :
    defaultCfg.lut P k = some 0#8 ↔ (P = 44 ∧ k = 33) ∨ (P = 57 ∧ (k = 42 ∨ k = 43)) := by
  have hall : ∀ t ∈ defaultCfg.sine, ∀ x ∈ t.2.zipIdx, x.1 = 0#8 →
      (t.1 = 44 ∧ x.2 = 33) ∨ (t.1 = 57 ∧ (x.2 = 42 ∨ x.2 = 43)) := by decide
  constructor
  · intro h
    obtain ⟨t, ht, rfl, hx⟩ := exists_table_of_lut h
    exact hall t ht _ hx rfl
  · rintro (⟨rfl, rfl⟩ | ⟨rfl, rfl | rfl⟩) <;> decide

theorem defaultCfg_lut_57_le {k : Nat} {v : Byte} (h : defaultCfg.lut 57 k = some v) : v.toNat ≤ 253 := by
  have hall : ∀ t ∈ defaultCfg.sine, t.1 = 57 → ∀ x ∈ t.2.zipIdx, x.1.toNat ≤ 253 := by decide
  obtain ⟨t, ht, hP, hx⟩ := exists_table_of_lut h
  exact hall t ht hP _ hx

theorem le_defaultCfg_lut_22 {k : Nat} {v : Byte} (h : defaultCfg.lut 22 k = some v) : 1 ≤ v.toNat := by
  have hall : ∀ t ∈ defaultCfg.sine, t.1 = 22 → ∀ x ∈ t.2.zipIdx, 1 ≤ x.1.toNat := by decide
  obtain ⟨t, ht, hP, hx⟩ := exists_table_of_lut h
  exact hall t ht hP _ hx

/-- Settles O48: a delivered sample is an entry of the ROM, and the rest are facts about its entries. -/
theorem defaultSampleRange : Obligations.DefaultSampleRange := by
  refine ⟨fun s t v hcfg hstep htrace => ?_, defaultCfg_lut_eq_254_iff, defaultCfg_lut_eq_0_iff,
    ⟨⟨14, by decide⟩, fun k v => defaultCfg_lut_57_le⟩, ⟨⟨16, by decide⟩, fun k v => le_defaultCfg_lut_22⟩⟩
  obtain ⟨g, hv⟩ := lut_of_step_sample hstep htrace
  exact defaultCfg_lut_le_254 (hcfg ▸ hv)

/-! ### The values of `SINQ` -/

theorem isSinq_iff (P k v : Nat) :
    IsSinq P k v ↔ (v : ℝ) ≤ 127 * Real.sin (2 * Real.pi * k / P) + 127 ∧
      127 * Real.sin (2 * Real.pi * k / P) + 127 < v + 1 := by
  rw [IsSinq, eq_comm, Int.floor_eq_iff]
  norm_num

theorem IsSinq.le_254 {P k v : Nat} (h : IsSinq P k v) : v ≤ 254 := by
  obtain ⟨hv, -⟩ := (isSinq_iff P k v).mp h
  have hsin := Real.sin_le_one (2 * Real.pi * k / P)
  have hle : (v : ℝ) ≤ (254 : ℕ) := by push_cast; linarith
  exact_mod_cast hle

theorem IsSinq.unique {P k v w : Nat} (hv : IsSinq P k v) (hw : IsSinq P k w) : w = v :=
  Int.ofNat_inj.mp (hw.trans hv.symm)

theorem exists_isSinq (P k : Nat) : ∃ v, IsSinq P k v := by
  have hsin := Real.neg_one_le_sin (2 * Real.pi * k / P)
  refine ⟨_, Int.toNat_of_nonneg (Int.floor_nonneg.mpr ?_)⟩
  norm_num
  linarith

/-- Settles O49: the floor determines the value, and −1 ≤ sin ≤ 1 bounds it; a delivered sample is an entry of the
ROM. -/
theorem sinqHasOneValueInRange : Obligations.SinqHasOneValueInRange := by
  refine ⟨fun P k _ _ => ?_, fun s t v hlut hstep htrace => ?_⟩
  · obtain ⟨v, hv⟩ := exists_isSinq P k
    exact ⟨v, hv.le_254, hv, fun w hw => hv.unique hw⟩
  · obtain ⟨g, hv⟩ := lut_of_step_sample hstep htrace
    obtain ⟨w, hw, hsinq⟩ := hlut g s.ph (lt_of_lut_eq_some hv)
    obtain rfl := Option.some.inj (hw.symm.trans hv)
    exact hsinq.le_254

end Sys2Proof.Machine

/-! PROOF. The default ROM agrees with the real sine (40_dds.md R100, R101). Where 127 · sin is no whole number, the
sine series at 355 / 113 for π, summed in integers, is close enough to fix the truncated value. At whole quarter turns
it is a whole number, which no interval can fix, and the sine is known there. -/

namespace Sys2Proof.Machine

/-! ### The sine series -/

/-- The even terms of the exponential series at `x·i` are real, so its imaginary part is the sine series. -/
theorem im_expSeries_mul_I (x : ℝ) (n : ℕ) :
    (∑ m ∈ Finset.range (2 * n), (x * Complex.I) ^ m / (m.factorial : ℂ)).im =
      ∑ i ∈ Finset.range n, (-1) ^ i * (x ^ (2 * i + 1) / ((2 * i + 1).factorial : ℝ)) := by
  induction n with
  | zero => simp
  | succ n ih =>
    have heven : (x * Complex.I) ^ (2 * n) / ((2 * n).factorial : ℂ) =
        (((-1) ^ n * x ^ (2 * n) / ((2 * n).factorial : ℝ) : ℝ) : ℂ) := by
      rw [mul_pow, pow_mul Complex.I, Complex.I_sq]
      push_cast
      ring
    have hodd : (x * Complex.I) ^ (2 * n + 1) / ((2 * n + 1).factorial : ℂ) =
        (((-1) ^ n * (x ^ (2 * n + 1) / ((2 * n + 1).factorial : ℝ)) : ℝ) : ℂ) * Complex.I := by
      rw [mul_pow, pow_succ Complex.I, pow_mul Complex.I, Complex.I_sq]
      push_cast
      ring
    rw [Nat.mul_succ, Finset.sum_range_succ, Finset.sum_range_succ, Finset.sum_range_succ, heven, hodd, Complex.add_im,
      Complex.add_im, ih, Complex.ofReal_im, Complex.im_ofReal_mul, Complex.I_im, add_zero, mul_one]

/-- The remainder of the sine series after `n` terms. -/
theorem abs_sin_sub_series_le {x : ℝ} {n : ℕ} (hx : |x| / (2 * n).succ ≤ 1 / 2) :
    |Real.sin x - ∑ i ∈ Finset.range n, (-1) ^ i * (x ^ (2 * i + 1) / ((2 * i + 1).factorial : ℝ))| ≤
      |x| ^ (2 * n) / (2 * n).factorial * 2 := by
  have hnorm : ‖(x * Complex.I : ℂ)‖ = |x| := by simp
  have hexp := Complex.exp_bound' (x := x * Complex.I) (n := 2 * n) (by rwa [hnorm])
  rw [hnorm] at hexp
  refine le_trans ?_ ((Complex.abs_im_le_norm _).trans hexp)
  rw [Complex.sub_im, im_expSeries_mul_I, Complex.exp_ofReal_mul_I_im]

/-! ### The series in integers -/

/-- The denominator `(2n + 1)! · q ^ (2n + 1)` of the first `n + 1` terms of the sine series at `p / q`. -/
def sinDen (q : ℤ) : ℕ → ℤ
  | 0 => q
  | n + 1 => sinDen q n * ((2 * n + 2) * (2 * n + 3) * q ^ 2)

/-- The sum of the first `n + 1` terms of the sine series at `p / q`, over `sinDen q n`. -/
def sinNum (p q : ℤ) : ℕ → ℤ
  | 0 => p
  | n + 1 => sinNum p q n * ((2 * n + 2) * (2 * n + 3) * q ^ 2) + (-1) ^ (n + 1) * p ^ (2 * n + 3)

theorem sinDen_eq (q : ℤ) (n : ℕ) : sinDen q n = (2 * n + 1).factorial * q ^ (2 * n + 1) := by
  induction n with
  | zero => simp [sinDen]
  | succ n ih =>
    rw [sinDen, ih, Nat.mul_succ, Nat.factorial_succ (2 * n + 2), Nat.factorial_succ (2 * n + 1)]
    push_cast
    ring

theorem sinDen_pos {q : ℤ} (hq : 0 < q) (n : ℕ) : 0 < sinDen q n := by
  rw [sinDen_eq]
  positivity

theorem sinNum_div_sinDen (p : ℤ) {q : ℤ} (hq : 0 < q) (n : ℕ) :
    (sinNum p q n : ℝ) / sinDen q n =
      ∑ i ∈ Finset.range (n + 1), (-1) ^ i * ((p / q : ℝ) ^ (2 * i + 1) / ((2 * i + 1).factorial : ℝ)) := by
  have hq' : (q : ℝ) ≠ 0 := by exact_mod_cast hq.ne'
  induction n with
  | zero => simp [sinNum, sinDen]
  | succ n ih =>
    have hD : (sinDen q n : ℝ) ≠ 0 := by exact_mod_cast (sinDen_pos hq n).ne'
    have hterm : (-1) ^ (n + 1) * ((p / q : ℝ) ^ (2 * (n + 1) + 1) / ((2 * (n + 1) + 1).factorial : ℝ)) =
        (-1) ^ (n + 1) * p ^ (2 * n + 3) / sinDen q (n + 1) := by
      rw [sinDen_eq, div_pow]
      push_cast
      field_simp
      ring
    rw [Finset.sum_range_succ, ← ih, hterm, sinNum, sinDen]
    push_cast
    field_simp

/-! ### The sine of 2πk / P -/

/-- The error of 355 / 113 for π, over one turn at most. -/
theorem abs_sin_two_pi_mul_sub_le {u : ℝ} (h0 : 0 ≤ u) (h1 : u ≤ 1) :
    |Real.sin (2 * Real.pi * u) - Real.sin (710 / 113 * u)| ≤ 2 / 10 ^ 6 := by
  have hlo := Real.pi_gt_d6
  have hhi := Real.pi_lt_d6
  have hpi : |2 * Real.pi - 710 / 113| ≤ 2 / 10 ^ 6 := by
    rw [abs_le]
    constructor <;> linarith
  calc |Real.sin (2 * Real.pi * u) - Real.sin (710 / 113 * u)|
      ≤ |2 * Real.pi * u - 710 / 113 * u| := Real.abs_sin_sub_sin_le _ _
    _ = |2 * Real.pi - 710 / 113| * u := by rw [← sub_mul, abs_mul, abs_of_nonneg h0]
    _ ≤ |2 * Real.pi - 710 / 113| := mul_le_of_le_one_right (abs_nonneg _) h1
    _ ≤ 2 / 10 ^ 6 := hpi

/-- The error of thirteen terms of the series, over one turn at most. -/
theorem abs_sin_sub_thirteen_terms_le {x : ℝ} (h0 : 0 ≤ x) (h1 : x ≤ 710 / 113) :
    |Real.sin x - ∑ i ∈ Finset.range 13, (-1) ^ i * (x ^ (2 * i + 1) / ((2 * i + 1).factorial : ℝ))| ≤ 8 / 10 ^ 6 := by
  have hx : |x| / (2 * 13).succ ≤ 1 / 2 := by
    rw [abs_of_nonneg h0, div_le_iff₀ (by positivity)]
    norm_num
    linarith
  refine (abs_sin_sub_series_le hx).trans ?_
  rw [abs_of_nonneg h0]
  calc x ^ 26 / (26).factorial * 2 ≤ (710 / 113) ^ 26 / (26).factorial * 2 := by gcongr
    _ ≤ 8 / 10 ^ 6 := by norm_num [Nat.factorial]

/-- `turnNum P k / turnDen P` is the sum of thirteen terms of the sine series at 2πk / P, with 355 / 113 for π. -/
def turnNum (P k : ℕ) : ℤ := sinNum (710 * k) (113 * P) 12

/-- The denominator of `turnNum`. -/
def turnDen (P : ℕ) : ℤ := sinDen (113 * P) 12

theorem turnDen_pos {P : ℕ} (hP : 0 < P) : 0 < turnDen P := sinDen_pos (by omega) 12

theorem abs_sin_sub_turn_le {P k : ℕ} (hk : k < P) :
    |Real.sin (2 * Real.pi * k / P) - turnNum P k / turnDen P| ≤ 1 / 10 ^ 5 := by
  have hP : (0 : ℝ) < P := by exact_mod_cast Nat.zero_lt_of_lt hk
  have hu0 : (0 : ℝ) ≤ k / P := by positivity
  have hu1 : (k / P : ℝ) ≤ 1 := (div_le_one hP).mpr (by exact_mod_cast hk.le)
  have hangle : |Real.sin (2 * Real.pi * k / P) - Real.sin (710 / 113 * (k / P))| ≤ 2 / 10 ^ 6 := by
    rw [mul_div_assoc]
    exact abs_sin_two_pi_mul_sub_le hu0 hu1
  have hseries : |Real.sin (710 / 113 * (k / P)) - turnNum P k / turnDen P| ≤ 8 / 10 ^ 6 := by
    have hratio : ((710 * k : ℤ) / (113 * P : ℤ) : ℝ) = 710 / 113 * (k / P) := by
      push_cast
      ring
    rw [turnNum, turnDen, sinNum_div_sinDen _ (by exact_mod_cast (by omega : 0 < 113 * P)), hratio]
    exact abs_sin_sub_thirteen_terms_le (by positivity) (by linarith)
  calc |Real.sin (2 * Real.pi * k / P) - turnNum P k / turnDen P|
      ≤ 2 / 10 ^ 6 + 8 / 10 ^ 6 := (abs_sub_le _ _ _).trans (add_le_add hangle hseries)
    _ = 1 / 10 ^ 5 := by norm_num

/-! ### The two ways an entry is fixed -/

/-- The approximation of the sine, within its error of 10⁻⁵, leaves `v` as the only truncated value. -/
def SinqByInterval (P k v : ℕ) : Prop :=
  (10 ^ 5 * ((v : ℤ) - 127) + 127) * turnDen P ≤ 127 * 10 ^ 5 * turnNum P k ∧
  127 * 10 ^ 5 * turnNum P k < (10 ^ 5 * ((v : ℤ) - 126) - 127) * turnDen P

/-- 2πk / P is a whole number of quarter turns, where the sine is 0, 1, 0 or −1, and `v` is the value there. -/
def SinqByQuarter (P k v : ℕ) : Prop :=
  (k = 0 ∧ v = 127) ∨ (4 * k = P ∧ v = 254) ∨ (4 * k = 2 * P ∧ v = 127) ∨ (4 * k = 3 * P ∧ v = 0)

theorem SinqByInterval.isSinq {P k v : ℕ} (h : SinqByInterval P k v) (hk : k < P) : IsSinq P k v := by
  obtain ⟨hlo, hhi⟩ := h
  have hD : (0 : ℝ) < turnDen P := by exact_mod_cast turnDen_pos (Nat.zero_lt_of_lt hk)
  have hlo' : (10 ^ 5 * ((v : ℝ) - 127) + 127) / (127 * 10 ^ 5) ≤ turnNum P k / turnDen P := by
    rw [div_le_div_iff₀ (by norm_num) hD, mul_comm (turnNum P k : ℝ)]
    exact_mod_cast hlo
  have hhi' : (turnNum P k : ℝ) / turnDen P < (10 ^ 5 * ((v : ℝ) - 126) - 127) / (127 * 10 ^ 5) := by
    rw [div_lt_div_iff₀ hD (by norm_num), mul_comm (turnNum P k : ℝ)]
    exact_mod_cast hhi
  obtain ⟨hsin, hsin'⟩ := abs_le.mp (abs_sin_sub_turn_le hk)
  rw [isSinq_iff]
  constructor <;> linarith

theorem angle_eq_quarters {P k j : ℕ} (hP : 0 < P) (h : 4 * k = j * P) :
    2 * Real.pi * k / P = j * (Real.pi / 2) := by
  have h' : (4 * k : ℝ) = j * P := by exact_mod_cast h
  rw [div_eq_iff (by exact_mod_cast hP.ne')]
  linear_combination Real.pi / 2 * h'

theorem SinqByQuarter.isSinq {P k v : ℕ} (h : SinqByQuarter P k v) (hk : k < P) : IsSinq P k v := by
  have hP : 0 < P := Nat.zero_lt_of_lt hk
  rw [isSinq_iff]
  obtain ⟨rfl, rfl⟩ | ⟨hj, rfl⟩ | ⟨hj, rfl⟩ | ⟨hj, rfl⟩ := h
  · simp
  · rw [angle_eq_quarters hP (j := 1) (by omega)]
    norm_num
  · rw [angle_eq_quarters hP (j := 2) (by omega), show (2 : ℕ) * (Real.pi / 2) = Real.pi by push_cast; ring]
    norm_num
  · rw [angle_eq_quarters hP hj, show (3 : ℕ) * (Real.pi / 2) = Real.pi / 2 + Real.pi by push_cast; ring,
      Real.sin_add_pi]
    norm_num

/-- Each of the 141 entries is fixed in one of the two ways, a closed check in integers. -/
theorem defaultCfg_entries_fixed : ∀ t ∈ defaultCfg.sine, ∀ x ∈ t.2.zipIdx,
    SinqByQuarter t.1 x.2 x.1.toNat ∨ SinqByInterval t.1 x.2 x.1.toNat := by
  unfold SinqByQuarter SinqByInterval
  decide

/-- Settles O50: a well-formed ROM has the entry, and each entry is fixed as the value of `SINQ`. -/
theorem defaultLutAgreesWithSinq : Obligations.DefaultLutAgreesWithSinq := by
  intro g k hk
  obtain ⟨v, hv⟩ := Cfg.wf_lut (c := defaultCfg) (by decide) g hk
  obtain ⟨t, ht, hP, hx⟩ := exists_table_of_lut hv
  refine ⟨v, hv, ?_⟩
  rw [← hP] at hk ⊢
  obtain hquarter | hinterval := defaultCfg_entries_fixed t ht _ hx
  · exact hquarter.isSinq hk
  · exact hinterval.isSinq hk

end Sys2Proof.Machine

/-! PROOF. Symbols (41_symbols.md): the run of a symbol delivers its segments' sequences back to back (R132), the sample
counts and sums under the default parameters (R138), and what a byte and a frame can be read back from (R140). A symbol
is followed segment by segment: a run that delivers some samples, and from where it ends one that delivers more. -/

namespace Sys2Proof.Machine

/-! ### Runs that deliver -/

/-- The sink accepts at each of the next `n` edges. -/
def State.AcceptsNext (n : Nat) (s : State) : Prop := ∀ m < n, ∃ e, s.edges[m]? = some e ∧ e.Accepts

/-- The run from `s` to `u` takes one edge for each of the samples `vs`, delivers them in order and records nothing
else. -/
structure Delivers (vs : List Byte) (s u : State) : Prop where
  run_eq : run vs.length s = .next u
  edges_eq : u.edges = s.edges.drop vs.length
  trace_eq : u.trace = (vs.map Event.sample).reverse ++ s.trace

theorem Delivers.trans {vs ws : List Byte} {s t u : State} (h₁ : Delivers vs s t) (h₂ : Delivers ws t u) :
    Delivers (vs ++ ws) s u where
  run_eq := by rw [List.length_append, run_add, h₁.run_eq]; exact h₂.run_eq
  edges_eq := by rw [h₂.edges_eq, h₁.edges_eq, List.drop_drop, List.length_append]
  trace_eq := by simp [h₂.trace_eq, h₁.trace_eq]

theorem State.AcceptsNext.mono {m n : Nat} {s : State} (h : s.AcceptsNext n) (hmn : m ≤ n) : s.AcceptsNext m :=
  fun k hk => h k (by omega)

theorem State.AcceptsNext.drop {m n : Nat} {s t : State} (h : s.AcceptsNext (m + n))
    (ht : t.edges = s.edges.drop m) : t.AcceptsNext n := fun k hk => by
  rw [ht, List.getElem?_drop]
  exact h (m + k) (by omega)

theorem acceptsNext_of_append {s : State} {acc es : List Edge} (hedges : s.edges = acc ++ es)
    (hacc : ∀ e ∈ acc, e.Accepts) : s.AcceptsNext acc.length := fun m hm =>
  ⟨acc[m], by rw [hedges, List.getElem?_append_left hm, List.getElem?_eq_getElem], hacc _ (List.getElem_mem _)⟩

/-! ### The run of a symbol -/

@[simp] theorem segSamples_length (c : Cfg) (g : Seg) : (segSamples c g).length = (c.row g).N := by simp [segSamples]

/-- Where a segment is active no reserved code is held (30_encoding.md R89): only `TAPEIN` has a segment 1. -/
theorem legal_of_seg {s : State} {g : Seg} (hact : activeFs s.fs = true) (hg : s.seg = some g) : s.legal = true := by
  have hfs : s.fs ≠ FS.reserved := fun h => by simp [h] at hact
  obtain hsidx | hsidx : s.sidx = 0#1 ∨ s.sidx = 1#1 := by generalize s.sidx = x; revert x; decide
  · simp [State.legal, hfs, hsidx]
  · have htapein : s.sym = 0b01#2 := by
      by_contra hne
      simp [State.seg, hsidx, segAt_one, hne] at hg
    simp [State.legal, hfs, htapein]

/-- The run of a whole segment delivers its sequence (40_dds.md R105), and its last edge completes the segment
(R104). -/
theorem delivers_segment {s : State} {g : Seg} (hwf : s.cfg.wf = true) (hact : activeFs s.fs = true)
    (hg : s.seg = some g) (haccept : s.AcceptsNext (segSamples s.cfg g).length) :
    Delivers (segSamples s.cfg g) (segStart g s) (segmentDone (s.inSegment g (s.cfg.row g).N)) := by
  rw [segSamples_length] at haccept
  have hlegal := legal_of_seg hact hg
  obtain ⟨-, hedges, htrace⟩ := segmentDone_frame (s.inSegment g (s.cfg.row g).N)
  refine ⟨?run, ?edges, htrace⟩
  case run =>
    obtain ⟨-, -, hN, -, -⟩ := Cfg.wf_row hwf g
    obtain ⟨n, hn⟩ := Nat.exists_eq_add_of_le' hN
    obtain ⟨e, he, hlast⟩ := haccept n (by omega)
    have hrun : run n (segStart g s) = .next (s.inSegment g n) :=
      run_inSegment hwf hlegal hact hg haccept (by omega)
    rw [segSamples_length, hn, run_succ_of_run hrun, step_inSegment hwf hlegal hact hg (by omega) he hlast,
      if_pos (by omega)]
  case edges => rw [hedges, segSamples_length]; rfl

/-- From a segment on, the run delivers it and the segments of the symbol that follow it: EMIT starts the next segment
at the edge that completes the one before (41_symbols.md R132). -/
theorem exists_delivers_segments {s : State} {g : Seg} (hwf : s.cfg.wf = true) (hact : activeFs s.fs = true)
    (hg : s.seg = some g)
    (haccept : s.AcceptsNext (segSamples s.cfg g ++ s.segsAhead.flatMap (segSamples s.cfg)).length) :
    ∃ u, Delivers (segSamples s.cfg g ++ s.segsAhead.flatMap (segSamples s.cfg)) (segStart g s) u := by
  rw [List.length_append] at haccept
  have hfirst := delivers_segment hwf hact hg (haccept.mono (Nat.le_add_right ..))
  obtain ⟨hsym, hsidx, hnext⟩ | ⟨hlast, -⟩ := segmentDone_cases (s.inSegment g (s.cfg.row g).N)
  · rw [segsAhead_of_tapein (s := s) hsym hsidx, List.flatMap_singleton] at haccept ⊢
    rw [hnext] at hfirst
    have hpartB : segAt s.sym 1 = some .tapeinB := (segAt_one s.sym).trans (if_pos hsym)
    exact ⟨_, hfirst.trans (delivers_segment (s := { s.inSegment g (s.cfg.row g).N with sidx := 1#1 }) hwf hact hpartB
      (haccept.drop hfirst.edges_eq))⟩
  · rw [segsAhead_of_not_tapein (s := s) hlast, List.flatMap_nil, List.append_nil]
    exact ⟨_, hfirst⟩

/-- The first segment of a symbol, and those that follow it (41_symbols.md R131). -/
theorem firstSeg_cons_segsAhead (y : Sym) (s : State) :
    firstSeg y :: { s with sym := y.code, sidx := 0#1 }.segsAhead = segs y := by
  cases y <;> rfl

/-- Settles O38: the symbol runs its first segment, and from there the run delivers the segments of its expansion. -/
theorem symbolDeliversSegments : Obligations.SymbolDeliversSegments := by
  intro s y i acc es hwf hact hi hlen hacc hedges
  have hsamples : symSamples s.cfg y = segSamples s.cfg (firstSeg y) ++
      { s with sym := y.code, sidx := 0#1 }.segsAhead.flatMap (segSamples s.cfg) := by
    rw [symSamples, ← firstSeg_cons_segsAhead y s, List.flatMap_cons]
  have hseg : { s with sym := y.code, sidx := 0#1 }.seg = some (firstSeg y) := by cases y <;> rfl
  have haccept : s.AcceptsNext (symSamples s.cfg y).length := by
    rw [symSamples_length, ← hlen]
    exact acceptsNext_of_append hedges hacc
  obtain ⟨u, hu⟩ := exists_delivers_segments (s := { s with sym := y.code, sidx := 0#1 }) hwf hact hseg
    (hsamples ▸ haccept)
  rw [← issue_code, ← hsamples] at hu
  obtain ⟨hrun, hedge, htrace⟩ := hu
  rw [symSamples_length] at hrun hedge
  refine ⟨_, u, exec_of_decode_sym hi s, hrun, hedge.trans ?_, symSamples_length .., htrace⟩
  show s.edges.drop _ = es
  rw [hedges, ← hlen, List.drop_left]

/-! ### Counts and sums -/

/-- The sum of a list of samples (41_symbols.md R138). -/
def sampleSum (vs : List Byte) : Nat := (vs.map BitVec.toNat).sum

@[simp] theorem sampleSum_append (vs ws : List Byte) : sampleSum (vs ++ ws) = sampleSum vs + sampleSum ws := by
  simp [sampleSum]

theorem sampleSum_flatMap {α : Type} (f : α → List Byte) (l : List α) :
    sampleSum (l.flatMap f) = (l.map fun a => sampleSum (f a)).sum := by
  induction l with
  | nil => rfl
  | cons a l ih => simp [ih]

/-- After a whole period a segment repeats from the phase index it started at (40_dds.md R105). -/
theorem segRest_period_add (c : Cfg) (g : Seg) (k n : Nat) :
    segRest c g k ((c.row g).P + n) = segRest c g k (c.row g).P ++ segRest c g k n := by
  simp [segRest, List.range_add, Nat.add_left_comm k]

/-- The sum of `q` whole periods and `r` samples more. -/
theorem sampleSum_segRest_periods (c : Cfg) (g : Seg) (k q r : Nat) :
    sampleSum (segRest c g k (q * (c.row g).P + r)) =
      q * sampleSum (segRest c g k (c.row g).P) + sampleSum (segRest c g k r) := by
  induction q with
  | zero => simp
  | succ q ih =>
    rw [Nat.add_one_mul, Nat.add_right_comm, Nat.add_comm, segRest_period_add, sampleSum_append, ih, Nat.add_one_mul]
    omega

/-- The Entry tone is 820 periods of 57 samples and 6 samples more (41_symbols.md R133). -/
theorem sampleSum_symSamples_entry : sampleSum (symSamples defaultCfg .entry) = 5913983 := by
  have hperiod : sampleSum (segRest defaultCfg .entry 0 57) = 7211 := by decide
  have hrest : sampleSum (segRest defaultCfg .entry 0 6) = 963 := by decide
  calc sampleSum (symSamples defaultCfg .entry)
    _ = sampleSum (segRest defaultCfg .entry 0 (820 * 57 + 6)) := by
      rw [symSamples, segs, List.flatMap_singleton]; rfl
    _ = 820 * sampleSum (segRest defaultCfg .entry 0 57) + sampleSum (segRest defaultCfg .entry 0 6) :=
      sampleSum_segRest_periods ..
    _ = 5913983 := by rw [hperiod, hrest]

/-- A quantity of the symbols that is `d` more for `BIT1` than for `BIT0`, added up over the bits of a byte. -/
theorem sum_bitsyms {w : Sym → Nat} {d : Nat} (hw : w .bit1 = w .bit0 + d) (b : Byte) :
    ((bitsyms b).map w).sum = 8 * w .bit0 + d * popcount b := by
  have hbit (v : Bool) : w (bitSym v) = w .bit0 + d * v.toNat := by cases v <;> simp [bitSym, hw]
  simp only [bitsyms, popcount, List.range, List.range.loop, List.map_cons, List.map_nil, List.sum_cons, List.sum_nil,
    hbit]
  ring

/-- Settles O45: the rows of the four symbols, and the eight bits of a byte, each of which adds 22 samples and 2784 to
the sum where it is 1. -/
theorem unitCountsAndSums : Obligations.UnitCountsAndSums := by
  have hbit0 : sampleSum (symSamples defaultCfg .bit0) = 2784 := by decide
  have hbit1 : sampleSum (symSamples defaultCfg .bit1) = 5568 := by decide
  refine ⟨symSamples_length .., sampleSum_symSamples_entry, symSamples_length .., by decide, symSamples_length .., hbit0,
    symSamples_length .., hbit1, fun b => ⟨?count, ?sum⟩⟩
  case count =>
    simp only [List.length_flatMap, symSamples_length]
    exact sum_bitsyms (w := symLen defaultCfg) (d := 22) rfl b
  case sum =>
    refine (sampleSum_flatMap _ _).trans ?_
    rw [sum_bitsyms (w := fun y => sampleSum (symSamples defaultCfg y)) (d := 2784) (by rw [hbit0, hbit1]), hbit0]

/-! ### Decodability -/

/-- What tells a 1 bit from a 0 bit, read off the eight bit symbols of a byte, determines the byte (41_symbols.md
R137). -/
theorem bitsyms_map_injective {α : Type} {w : Sym → α} (hw : Function.Injective fun v => w (bitSym v)) :
    Function.Injective fun b => (bitsyms b).map w := fun b d h => by
  simp only [bitsyms, List.map_cons, List.cons.injEq, hw.eq_iff, List.map_nil, and_true] at h
  obtain ⟨h7, h6, h5, h4, h3, h2, h1, h0⟩ := h
  refine BitVec.eq_of_getLsbD_eq fun i hi => ?_
  interval_cases i <;> assumption

theorem bitSym_injective : Function.Injective bitSym := by unfold Function.Injective; decide

theorem bitsyms_injective : Function.Injective bitsyms := by
  simpa only [List.map_id] using bitsyms_map_injective (w := id) bitSym_injective

/-- Where no code word is empty and the start of a sequence tells its first code word, a sequence of code words
determines the words it was made of. -/
theorem flatMap_injective_of_prefixCode {α β : Type} {f : α → List β} (hne : ∀ a, f a ≠ [])
    (hfirst : ∀ a b x y, f a ++ x = f b ++ y → a = b) : Function.Injective fun l : List α => l.flatMap f := by
  intro l
  induction l with
  | nil =>
    rintro (_ | ⟨b, m⟩) h
    · rfl
    · exact absurd (List.append_eq_nil_iff.mp h.symm).1 (hne b)
  | cons a l ih =>
    rintro (_ | ⟨b, m⟩) h
    · exact absurd (List.append_eq_nil_iff.mp h).1 (hne a)
    · simp only [List.flatMap_cons] at h
      obtain rfl := hfirst _ _ _ _ h
      rw [ih (List.append_cancel_left h)]

/-- A sequence of bytes is read back from its bit symbols, eight at a time. -/
theorem flatMap_bitsyms_injective : Function.Injective fun bs : List Byte => bs.flatMap bitsyms :=
  flatMap_injective_of_prefixCode (fun _ => List.cons_ne_nil _ _)
    fun _ _ _ _ h => bitsyms_injective (List.append_inj_left h rfl)

/-- The checksum byte at the end of a frame is a byte like the others. -/
theorem frameSyms_eq (bs : List Byte) :
    frameSyms bs = [.entry, .tapein] ++ (bs ++ [checksum bs]).flatMap bitsyms := by
  simp [frameSyms]

theorem frameSyms_injective : Function.Injective frameSyms := fun bs ds h => by
  rw [frameSyms_eq, frameSyms_eq] at h
  exact (List.append_inj' (flatMap_bitsyms_injective (List.append_cancel_left h)) rfl).1

/-- A symbol starts with the samples of its first segment (41_symbols.md R132), whatever follows it. -/
theorem symSamples_append_getElem? {c : Cfg} {y : Sym} {i : Nat} (hi : i < (c.row (firstSeg y)).N) (vs : List Byte) :
    (symSamples c y ++ vs)[i]? = some (segSample c (firstSeg y) i) := by
  obtain ⟨gs, hgs⟩ : ∃ gs, segs y = firstSeg y :: gs := by cases y <;> exact ⟨_, rfl⟩
  rw [symSamples, hgs, List.flatMap_cons, List.append_assoc, List.getElem?_append_left (by simpa using hi), segSamples,
    List.getElem?_map, List.getElem?_range hi, Option.map_some]

theorem one_lt_firstSeg_N (y : Sym) : 1 < (defaultCfg.row (firstSeg y)).N := by cases y <;> decide

/-- Under the default parameters the second sample tells the four symbols apart: 140, 170, 162 and 145. -/
theorem segSample_one_injective : Function.Injective fun y => segSample defaultCfg (firstSeg y) 1 := by
  intro y z
  cases y <;> cases z <;> decide

theorem symSamples_ne_nil (y : Sym) : symSamples defaultCfg y ≠ [] := fun h => by
  have hsecond := symSamples_append_getElem? (one_lt_firstSeg_N y) []
  rw [h] at hsecond
  cases hsecond

/-- A stream that starts with a symbol's samples tells that symbol by its second sample. -/
theorem symSamples_prefixCode (y z : Sym) (vs ws : List Byte)
    (h : symSamples defaultCfg y ++ vs = symSamples defaultCfg z ++ ws) : y = z := by
  have hy := symSamples_append_getElem? (one_lt_firstSeg_N y) vs
  rw [h, symSamples_append_getElem? (one_lt_firstSeg_N z)] at hy
  exact segSample_one_injective (Option.some.inj hy.symm)

theorem symLen_bitSym_injective : Function.Injective fun v => symLen defaultCfg (bitSym v) := by
  unfold Function.Injective; decide

/-- Settles O47: a bit symbol is told by its length, and a symbol in a stream by its second sample. -/
theorem frameIsDecodable : Obligations.FrameIsDecodable := by
  refine ⟨fun b d h => ?lengths, fun bs ds h => ?frame⟩
  case lengths => exact bitsyms_map_injective symLen_bitSym_injective h
  case frame =>
    exact frameSyms_injective (flatMap_injective_of_prefixCode symSamples_ne_nil symSamples_prefixCode h)

end Sys2Proof.Machine

/-! PROOF. Frames (42_framing.md §3): a frame without waits is run to `DONE` (R160), and what a run has delivered
in any reachable state. A run is put together from parts, each with the pins it takes: the samples ahead of a
state, a data byte, the END token. What the final state has delivered is then read off `Reachable`. -/

namespace Sys2Proof.Machine

/-! ### Parts of a run -/

theorem run_keeps_cfg {n : Nat} {s t : State} (h : run n s = .next t) : t.cfg = s.cfg :=
  run_keeps (P := fun u => u.cfg = s.cfg) (fun u v hu hstep => (stepIsOneTransaction u v hstep).1.trans hu) rfl h

/-- The run from `s` to `u` takes the pins `ds` and consumes the data bytes `bs`. -/
structure Consumes (ds : List Edge) (bs : List Byte) (s u : State) : Prop where
  run_eq : run ds.length s = .next u
  edges_eq : s.edges = ds ++ u.edges
  bytes_eq : u.runBytes = s.runBytes ++ bs

theorem Consumes.refl (s : State) : Consumes [] [] s s := ⟨rfl, rfl, (List.append_nil _).symm⟩

theorem Consumes.trans {ds es : List Edge} {bs cs : List Byte} {s t u : State} (h₁ : Consumes ds bs s t)
    (h₂ : Consumes es cs t u) : Consumes (ds ++ es) (bs ++ cs) s u where
  run_eq := by rw [List.length_append, run_add, h₁.run_eq]; exact h₂.run_eq
  edges_eq := by rw [h₁.edges_eq, h₂.edges_eq, List.append_assoc]
  bytes_eq := by rw [h₂.bytes_eq, h₁.bytes_eq, List.append_assoc]

/-- One step is such a run, of the edge it passes. -/
theorem Consumes.of_step {e : Edge} {es : List Edge} {bs : List Byte} {s t : State} (hedges : s.edges = e :: es)
    (hstep : step s = .next t) (hbytes : t.runBytes = s.runBytes ++ bs) : Consumes [e] bs s t where
  run_eq := run_succ_of_run (n := 0) rfl |>.trans hstep
  edges_eq := by rw [(stepIsOneTransaction s t hstep).2.1, hedges]; rfl
  bytes_eq := hbytes

section
variable {ds es : List Edge} {bs : List Byte} {s u : State}

theorem Consumes.edges_left (h : Consumes ds bs s u) (hedges : s.edges = ds ++ es) : u.edges = es :=
  List.append_cancel_left (h.edges_eq.symm.trans hedges)

theorem Consumes.cfg_eq (h : Consumes ds bs s u) : u.cfg = s.cfg := run_keeps_cfg h.run_eq

theorem Consumes.frameInv (h : Consumes ds bs s u) (hs : s.FrameInv) : u.FrameInv :=
  run_keeps (fun _ _ => step_keeps_frameInv) hs h.run_eq

end

/-! ### The samples ahead -/

/-- EMIT enters no fault: it keeps `fcode`, and a fault has a cause (60_exceptions.md R180). -/
theorem emit_ne_fault {s t : State} (hwf : s.cfg.wf = true) (hs : s.Inv) (hact : activeFs s.fs = true)
    (h : emit s = .next t) : t.fs ≠ FS.fault := fun hf => by
  have hclean : t.fcode = FC.none := (emit_keeps h).2.1.trans (hs.noFault (ne_fault_of_activeFs hact)).1
  have hcause := (emit_inv hwf hs hact h).faultCause hf
  simp [hclean] at hcause

/-- Where no segment is active and no fault was entered, the sequencer waits or the frame is complete. -/
theorem State.Inv.fs_of_inactive {s : State} (hs : s.Inv) (hf : s.fs ≠ FS.fault) (hoff : activeFs s.fs = false) :
    s.fs = if s.inTrailer then FS.done else FS.payWait := by
  have codes : ∀ f : BitVec 3, activeFs f = false → f ≠ FS.fault → f ≠ FS.reserved →
      f = if f == FS.trlBits || f == FS.done then FS.done else FS.payWait := by decide
  have hfr := framing_of_ne_fault hf
  rw [State.inTrailer, hfr]
  exact codes s.fs hoff hf (hfr ▸ hs.framingLegal.1)

/-- A segment is active exactly where samples are ahead. -/
theorem State.Inv.activeFs_iff_ahead {s : State} (hs : s.Inv) (hwf : s.cfg.wf = true) (hf : s.fs ≠ FS.fault) :
    activeFs s.fs = true ↔ s.ahead ≠ [] := by
  constructor
  · intro hact
    obtain ⟨t, ht⟩ := emit_answers hwf hs hact
    obtain ⟨v, -, hahead⟩ := emit_ahead hwf hs hact ht
    simp [hahead]
  · intro hne
    by_contra hoff
    exact hne (ahead_of_inactive (by simpa [framing_of_ne_fault hf] using hoff))

/-- An accepting edge where a segment is active takes one sample off those ahead, and enters no fault. -/
theorem exists_step_of_accepts {s : State} {e : Edge} {es : List Edge} (hwf : s.cfg.wf = true) (hs : s.Inv)
    (hact : activeFs s.fs = true) (hedges : s.edges = e :: es) (haccept : e.Accepts) :
    ∃ t v, step s = .next t ∧ t.Inv ∧ t.fs ≠ FS.fault ∧ t.trace = .sample v :: s.trace ∧ s.ahead = v :: t.ahead ∧
      t.inTrailer = s.inTrailer := by
  obtain ⟨hrst, herr, hready⟩ := haccept
  have hpass := hs.passEdge
  obtain ⟨t, hemit⟩ := emit_answers (s := s.passEdge) hwf hpass hact
  have hnext : s.nextEdge = e := by rw [State.nextEdge, hedges]; rfl
  have hstep : step s = .next t := by
    rw [step, hnext, runEdge_accept (s := s.passEdge) hwf hpass.legal hrst hact herr hready, hemit]
  obtain ⟨v, htrace, hahead⟩ := emit_ahead (s := s.passEdge) hwf hpass hact hemit
  exact ⟨t, v, hstep, emit_inv (s := s.passEdge) hwf hpass hact hemit,
    emit_ne_fault (s := s.passEdge) hwf hpass hact hemit, htrace, hahead,
    emit_inTrailer (s := s.passEdge) hact hemit⟩

/-- A sink that accepts gets all that is ahead; then the sequencer waits for a token or the frame is complete. -/
theorem exists_consumes_ahead {acc es : List Edge} {s : State} (hwf : s.cfg.wf = true) (hs : s.Inv)
    (hf : s.fs ≠ FS.fault) (hacc : ∀ e ∈ acc, e.Accepts) (hlen : s.ahead.length = acc.length)
    (hedges : s.edges = acc ++ es) :
    ∃ u, Consumes acc [] s u ∧ u.fs = if s.inTrailer then FS.done else FS.payWait := by
  induction acc generalizing s with
  | nil =>
    have hoff : activeFs s.fs = false := by
      rw [← Bool.not_eq_true, hs.activeFs_iff_ahead hwf hf, not_ne_iff]
      exact List.eq_nil_of_length_eq_zero hlen
    exact ⟨s, Consumes.refl s, hs.fs_of_inactive hf hoff⟩
  | cons e acc ih =>
    obtain ⟨haccept, hacc⟩ := List.forall_mem_cons.mp hacc
    have hact : activeFs s.fs = true :=
      (hs.activeFs_iff_ahead hwf hf).mpr (List.ne_nil_of_length_eq_add_one hlen)
    obtain ⟨t, v, hstep, htinv, hne, htrace, hahead, htrailer⟩ :=
      exists_step_of_accepts hwf hs hact hedges haccept
    have hpass : Consumes [e] [] s t := .of_step hedges hstep (runBytes_of_event (by simp) htrace)
    obtain ⟨u, hu, hend⟩ := ih (hpass.cfg_eq ▸ hwf) htinv hne hacc (by simpa [hahead] using hlen)
      (hpass.edges_left hedges)
    exact ⟨u, hpass.trans hu, htrailer ▸ hend⟩

/-! ### The parts of a frame -/

theorem acceptEdges_accept (n : Nat) : ∀ e ∈ acceptEdges n, e.Accepts := fun e he => by
  rw [List.eq_of_mem_replicate he]
  exact ⟨rfl, rfl, rfl⟩

/-- The Preamble (42_framing.md R151, R152) ends where the sequencer waits for the first token. -/
theorem exists_consumes_preamble {c : Cfg} (es : List Edge) (hwf : c.wf = true) :
    ∃ u, Consumes (acceptEdges (symLen c .entry + symLen c .tapein)) []
      (State.resetWith c (acceptEdges (symLen c .entry + symLen c .tapein) ++ es)) u ∧ u.fs = FS.payWait := by
  refine exists_consumes_ahead (s := State.resetWith c _) hwf (resetKeepsInvariants c _ hwf) (by simp [State.resetWith])
    (acceptEdges_accept _) ?_ rfl
  simp [resetWith_ahead, symSamples_length, acceptEdges]

/-- Where the sequencer waits, the token on the pins is executed (20_memory.md R52). -/
theorem step_of_tokenEdge {s : State} {w : TokWord} {es : List Edge} (hwf : s.cfg.wf = true) (hs : s.Inv)
    (hwait : s.fs = FS.payWait) (hedges : s.edges = tokenEdge w :: es) :
    step s = exec (decodeTok w) s.passEdge := by
  have hnext : s.nextEdge = tokenEdge w := by rw [State.nextEdge, hedges]; rfl
  rw [step, hnext, runEdge_token (s := s.passEdge) hwf hs.passEdge.legal rfl hwait rfl]
  exact congrArg (fun w => exec (decodeTok w) _) (tokWord_fields w)

/-- A token that starts the byte `b`, and the byte's eight bit symbols (42_framing.md R153, R154). -/
theorem exists_consumes_startByte {s r : State} {w : TokWord} {f : BitVec 3} {b : Byte} {es : List Edge}
    (hwf : s.cfg.wf = true) (hs : s.Inv) (hwait : s.fs = FS.payWait)
    (hedges : s.edges = tokenEdge w :: acceptEdges (byteLen s.cfg b) ++ es) (hf : f = FS.payBits ∨ f = FS.trlBits)
    (hexec : exec (decodeTok w) s.passEdge = .next (startByte f b r)) :
    ∃ u, Consumes (tokenEdge w :: acceptEdges (byteLen s.cfg b)) (byteOf? w).toList s u ∧
      u.fs = if f = FS.trlBits then FS.done else FS.payWait := by
  have hstep := (step_of_tokenEdge hwf hs hwait hedges).trans hexec
  obtain ⟨hcfg, hedge, htrace⟩ := exec_decodeTok_frame (s := s.passEdge) hwait hexec
  have hcfg : r.cfg = s.cfg := hcfg
  have hlen : (startByte f b r).ahead.length = (acceptEdges (byteLen s.cfg b)).length := by
    rw [startByte_ahead (hcfg ▸ hwf) hf, List.length_flatMap, acceptEdges, List.length_replicate, hcfg]
    simp only [symSamples_length, byteLen]
  have hne : (startByte f b r).fs ≠ FS.fault := by
    show f ≠ _
    obtain rfl | rfl := hf <;> simp
  have htoken := Consumes.of_step hedges hstep (runBytes_of_token (s := s) htrace)
  obtain ⟨u, hu, hend⟩ := exists_consumes_ahead (s := startByte f b r) (hcfg ▸ hwf)
    (stepKeepsInvariants _ _ hs hstep) hne (acceptEdges_accept _) hlen
    (hedge.trans (congrArg List.tail hedges))
  have hbyte := htoken.trans hu
  rw [List.append_nil, List.singleton_append] at hbyte
  refine ⟨u, hbyte, hend.trans ?_⟩
  obtain rfl | rfl := hf <;> rfl

/-- The pins of a data byte that nothing waits for. -/
def byteEdges (c : Cfg) (b : Byte) : List Edge := tokenEdge (tokWord 0b00#2 b) :: acceptEdges (byteLen c b)

/-- The data bytes of the Payload, one after the other. -/
theorem exists_consumes_bytes {bs : List Byte} {es : List Edge} {s : State} (hwf : s.cfg.wf = true) (hs : s.FrameInv)
    (hwait : s.fs = FS.payWait) (hedges : s.edges = bs.flatMap (byteEdges s.cfg) ++ es) :
    ∃ u, Consumes (bs.flatMap (byteEdges s.cfg)) bs s u ∧ u.fs = FS.payWait := by
  induction bs generalizing s with
  | nil => exact ⟨s, Consumes.refl s, hwait⟩
  | cons b bs ih =>
    rw [List.flatMap_cons, List.append_assoc] at hedges
    obtain ⟨t, ht, hend⟩ := exists_consumes_startByte hwf hs.inv hwait hedges (.inl rfl)
      (by simpa [decodeTok] using exec_tokByte_of_payWait (s := s.passEdge) hwait b)
    rw [byteOf?_byte] at ht
    obtain ⟨u, hu, hend⟩ := ih (ht.cfg_eq ▸ hwf) (ht.frameInv hs) hend (ht.cfg_eq ▸ ht.edges_left hedges)
    rw [ht.cfg_eq] at hu
    exact ⟨u, ht.trans hu, hend⟩

/-- The pins of the END token and a trailer of the checksum `ck`, where nothing waits. -/
def endEdges (c : Cfg) (ck : Byte) : List Edge := tokenEdge (tokWord 0b01#2 0) :: acceptEdges (byteLen c ck)

/-- The END token and the trailer (42_framing.md R154). -/
theorem exists_consumes_end {es : List Edge} {s : State} (hwf : s.cfg.wf = true) (hs : s.Inv)
    (hwait : s.fs = FS.payWait) (hedges : s.edges = endEdges s.cfg s.cks ++ es) :
    ∃ u, Consumes (endEdges s.cfg s.cks) [] s u ∧ u.fs = FS.done := by
  obtain ⟨u, hu, hend⟩ := exists_consumes_startByte hwf hs hwait hedges (.inr rfl)
    (by simpa [decodeTok] using exec_tokEnd_of_payWait (s := s.passEdge) hwait 0)
  rw [byteOf?_of_ne (by decide)] at hu
  exact ⟨u, hu, hend⟩

/-- What follows the Preamble: the bytes and the trailer, whose byte is the checksum of all bytes consumed. -/
theorem exists_consumes_payload {bs : List Byte} {es : List Edge} {s : State} (hwf : s.cfg.wf = true)
    (hs : s.FrameInv) (hwait : s.fs = FS.payWait)
    (hedges : s.edges = bs.flatMap (byteEdges s.cfg) ++ (endEdges s.cfg (checksum (s.runBytes ++ bs)) ++ es)) :
    ∃ u, Consumes (bs.flatMap (byteEdges s.cfg) ++ endEdges s.cfg (checksum (s.runBytes ++ bs))) bs s u ∧
      u.fs = FS.done := by
  obtain ⟨t, ht, hwait⟩ := exists_consumes_bytes hwf hs hwait hedges
  have htinv := ht.frameInv hs
  have hcks : t.cks = checksum (s.runBytes ++ bs) := by rw [htinv.checksumLaw, ht.bytes_eq]
  have hleft := ht.edges_left hedges
  rw [← hcks, ← ht.cfg_eq] at hleft
  obtain ⟨u, hu, hdone⟩ := exists_consumes_end (ht.cfg_eq ▸ hwf) htinv.inv hwait hleft
  have hrun := ht.trans hu
  rw [ht.cfg_eq, hcks, List.append_nil] at hrun
  exact ⟨u, hrun, hdone⟩

theorem frameEdges_eq (c : Cfg) (bs : List Byte) :
    frameEdges c bs = acceptEdges (symLen c .entry + symLen c .tapein) ++
      (bs.flatMap (byteEdges c) ++ endEdges c (checksum bs)) := by
  rw [frameEdges, List.append_assoc]
  rfl

/-- Preamble, Payload and trailer: a frame that nothing waits for is run to `DONE`. -/
theorem exists_consumes_frame {c : Cfg} (bs : List Byte) (hwf : c.wf = true) :
    ∃ u, Consumes (frameEdges c bs) bs (State.resetWith c (frameEdges c bs)) u ∧ u.fs = FS.done := by
  rw [frameEdges_eq]
  obtain ⟨t, ht, hwait⟩ := exists_consumes_preamble (bs.flatMap (byteEdges c) ++ endEdges c (checksum bs)) hwf
  have hbytes : t.runBytes = [] := ht.bytes_eq
  have hedges := ht.edges_left rfl
  obtain rfl : t.cfg = c := ht.cfg_eq
  obtain ⟨u, hu, hdone⟩ := exists_consumes_payload (bs := bs) (es := []) hwf
    (ht.frameInv ⟨resetKeepsInvariants _ _ hwf, rfl, resetWith_framePlan ..⟩) hwait
    (by rw [hbytes, List.append_nil]; exact hedges)
  rw [hbytes] at hu
  exact ⟨u, ht.trans hu, hdone⟩

/-! ### The bit counter in `DONE` -/

theorem symbolDone_bc_of_done {s : State} (hact : activeFs s.fs = true) (h : (symbolDone s).fs = FS.done) :
    (symbolDone s).bc = 0#3 := by
  have hne : s.fs ≠ FS.done := fun hf => by simp [hf] at hact
  obtain ⟨-, e⟩ | ⟨-, e⟩ | ⟨-, hbc, e⟩ | ⟨-, hbc, e⟩ | ⟨-, -, e⟩ | ⟨-, e⟩ := symbolDone_cases s <;> rw [e] at h ⊢
  · exact absurd h (by simp)
  · exact absurd h (by simp)
  · exact hbc
  · exact hbc
  · exact absurd h hne
  · exact absurd h hne

/-- The frame is complete after bit 0 of the checksum (42_framing.md R157). -/
theorem emit_bc_of_done {s t : State} (hact : activeFs s.fs = true) (h : emit s = .next t) (hdone : t.fs = FS.done) :
    t.bc = 0#3 := by
  have hne : s.fs ≠ FS.done := fun hf => by simp [hf] at hact
  obtain ⟨g, v, -, -, ⟨-, rfl⟩ | ⟨-, rfl⟩⟩ := emit_next h
  · exact absurd hdone hne
  obtain ⟨-, -, e⟩ | ⟨-, e⟩ := segmentDone_cases (deliver (s.cfg.row g).P v s) <;> rw [e] at hdone ⊢
  · exact absurd hdone (by simpa using hne)
  · exact symbolDone_bc_of_done (s := deliver (s.cfg.row g).P v s) hact hdone

theorem step_keeps_bc_of_done {s t : State} (hs : s.fs = FS.done → s.bc = 0#3) (h : step s = .next t)
    (hdone : t.fs = FS.done) : t.bc = 0#3 := by
  obtain ⟨-, ⟨-, rfl⟩ | ⟨-, -, hstep⟩⟩ := runEdge_next h
  · rfl
  obtain ⟨-, -, rfl⟩ | ⟨hact, -, -, hemit⟩ | ⟨hwait, -, htok⟩ | rfl := hstep
  · exact absurd hdone (by simp)
  · exact emit_bc_of_done hact hemit hdone
  · obtain ⟨b, -, rfl⟩ | ⟨x, -, rfl⟩ | ⟨x, -, rfl⟩ | ⟨x, -, rfl⟩ := exec_decodeTok_next hwait htok
    · exact absurd hdone (show FS.payBits ≠ FS.done by decide)
    · exact absurd hdone (show FS.trlBits ≠ FS.done by decide)
    · exact absurd hdone (by simp)
    · exact absurd hdone (by simp)
  · exact hs hdone

theorem Reachable.bc_of_done {s : State} (hs : Reachable s) : s.fs = FS.done → s.bc = 0#3 :=
  hs.invariant (fun _ _ _ _ => rfl) (fun _ _ => step_keeps_bc_of_done)

/-! ### The statements -/

/-- Settles O39: the run is put together from the Preamble, the bytes and the trailer, and what it leaves in `DONE` is
what every reachable state in `DONE` holds. -/
theorem frameRunReachesDone : Obligations.FrameRunReachesDone := by
  intro c bs hwf
  obtain ⟨t, ht, hdone⟩ := exists_consumes_frame bs hwf
  have hreach : Reachable t := ⟨c, _, _, hwf, ht.run_eq⟩
  obtain ⟨hinv, hcks, -⟩ := hreach.frameInv
  have hcfg : t.cfg = c := ht.cfg_eq
  have hbytes : t.runBytes = bs := ht.bytes_eq
  have hfr : t.framing = FS.done := (framing_of_ne_fault (by simp [hdone])).trans hdone
  obtain ⟨hfcode, hffs⟩ := hinv.noFault (by simp [hdone])
  have hsamples := hreach.runSamples_of_done hdone
  rw [hbytes] at hcks
  rw [hcfg, hbytes] at hsamples
  refine ⟨t, ht.run_eq, hdone, ?status, hcks, (hinv.shIsCks (.inr hfr)).trans hcks, hreach.bc_of_done hdone,
    hinv.remZero (.inr hfr), ht.edges_left (List.append_nil _).symm, hbytes, hsamples⟩
  case status => rw [State.status, hffs, hfcode, hdone]; rfl

/-- Settles O40: the samples delivered and those ahead are the symbols begun, a first part of the frame. -/
theorem deliveredIsFramePart : Obligations.DeliveredIsFramePart := fun _ hs => hs.runSamples_prefix

end Sys2Proof.Machine

/-! PROOF. The tokens of a frame (42_framing.md R162), EMIT with `symbol_done` (40_dds.md R104, R157), the final states
(R162, 60_exceptions.md R184), the checksum law (R158), and the sample count and sum of a frame (R161). -/

namespace Sys2Proof.Machine

/-! ### The tokens consumed -/

/-- The tokens consumed are the data bytes, and END after them once the trailer has begun; a fault that a token entered
is left aside, for its token is neither. -/
def State.TokensFitFrame (s : State) : Prop :=
  (s.fs ≠ FS.fault → s.inTrailer = false → s.runTokens = s.runBytes.map (tokWord 0b00#2)) ∧
  (s.inTrailer = true → ∃ x, s.runTokens = s.runBytes.map (tokWord 0b00#2) ++ [tokWord 0b01#2 x])

/-- A step that consumes no token keeps this. -/
theorem tokensFitFrame_congr {s t : State} (hs : s.TokensFitFrame) (hf : s.fs ≠ FS.fault)
    (htokens : t.runTokens = s.runTokens) (htrailer : t.inTrailer = s.inTrailer) : t.TokensFitFrame := by
  rw [State.TokensFitFrame, htrailer, State.runBytes, htokens]
  exact ⟨fun _ => hs.1 hf, hs.2⟩

theorem exec_decodeTok_tokensFitFrame {w : TokWord} {s t : State} (hwait : s.fs = FS.payWait) (hs : s.TokensFitFrame)
    (h : exec (decodeTok w) s = .next t) : t.TokensFitFrame := by
  have hfr : s.framing = FS.payWait := (framing_of_ne_fault (by simp [hwait])).trans hwait
  have hsent := hs.1 (by simp [hwait]) (by simp [State.inTrailer, hfr])
  have htrace := (exec_decodeTok_frame hwait h).2.2
  have htokens : t.runTokens = s.runTokens ++ [w] := runTokens_of_event (by simp) htrace
  have hbytes := runBytes_of_token htrace
  have hfault {c : BitVec 2} : (raiseFault c (s.tokRead w)).inTrailer = false := by
    simp [State.inTrailer, State.framing, hwait]
  rw [State.TokensFitFrame, htokens, hbytes, hsent]
  obtain ⟨b, rfl, rfl⟩ | ⟨x, rfl, rfl⟩ | ⟨x, -, rfl⟩ | ⟨x, -, rfl⟩ := exec_decodeTok_next hwait h
  · rw [startByte_payBits_inTrailer, byteOf?_byte]
    simp
  · rw [byteOf?_of_ne (by decide), Option.toList_none, List.append_nil]
    exact ⟨fun _ hoff => (by cases hoff), fun _ => ⟨x, rfl⟩⟩
  · exact ⟨fun hne => absurd rfl hne, fun hon => by simp [hfault] at hon⟩
  · exact ⟨fun hne => absurd rfl hne, fun hon => by simp [hfault] at hon⟩

theorem step_keeps_tokensFitFrame {s t : State} (hs : s.TokensFitFrame) (h : step s = .next t) : t.TokensFitFrame := by
  have hs : s.passEdge.TokensFitFrame := hs
  obtain ⟨-, ⟨-, rfl⟩ | ⟨-, -, hstep⟩⟩ := runEdge_next h
  · have htokens : (resetStep s.passEdge).runTokens = [] := by rw [State.runTokens, runEvents_of_reset rfl]; rfl
    rw [State.TokensFitFrame, State.runBytes, htokens]
    exact ⟨fun _ _ => rfl, fun hon => by cases hon⟩
  obtain ⟨hact, -, rfl⟩ | ⟨hact, -, -, hemit⟩ | ⟨hwait, -, htok⟩ | rfl := hstep
  · have hne := ne_fault_of_activeFs hact
    refine tokensFitFrame_congr hs hne ?_ ?_
    · exact (runTokens_of_event (s := s) (ev := .wfail) (by simp) rfl).trans (List.append_nil _)
    · rw [State.inTrailer, State.inTrailer, framing_of_ne_fault hne]
      rfl
  · obtain ⟨-, -, v, htrace⟩ := emit_frame hemit
    exact tokensFitFrame_congr hs (ne_fault_of_activeFs hact)
      ((runTokens_of_event (by simp) htrace).trans (List.append_nil _)) (emit_inTrailer hact hemit)
  · exact exec_decodeTok_tokensFitFrame hwait hs htok
  · exact hs

theorem Reachable.tokensFitFrame {s : State} (hs : Reachable s) : s.TokensFitFrame :=
  hs.invariant (fun _ _ _ => ⟨fun _ _ => rfl, fun hon => by cases hon⟩) (fun _ _ => step_keeps_tokensFitFrame)

/-- Settles O41: `DONE` has no sample ahead, and the trailer that led to it began with END. -/
theorem doneDeliveredWholeFrame : Obligations.DoneDeliveredWholeFrame := by
  intro s hs hdone
  have hfr : s.framing = FS.done := (framing_of_ne_fault (by simp [hdone])).trans hdone
  exact ⟨hs.runSamples_of_done hdone, hs.tokensFitFrame.2 (by simp [State.inTrailer, hfr])⟩

/-! ### EMIT -/

/-- EMIT inside a segment (40_dds.md R104). -/
theorem emit_of_more {s : State} {g : Seg} {v : Byte} (hwf : s.cfg.wf = true) (hg : s.seg = some g)
    (hv : s.cfg.lut (s.cfg.row g).P s.ph = some v) (hN : s.rem ≤ (s.cfg.row g).N) (hrem : 1 < s.rem) :
    emit s = .next { s with ph := (s.ph + 1) % (s.cfg.row g).P, rem := s.rem - 1, trace := .sample v :: s.trace } := by
  have hmore : s.rem - 1 ≠ 0 := by omega
  rw [emit_eq hg hv, deliver_eq hwf (by omega) hN, if_neg hmore]

/-- The Tape-in marker ends with the second segment of `TAPEIN`. -/
theorem segmentDone_of_tapein_end {s : State} (hf : s.fs = FS.preTapein) (hsidx : s.sidx = 1#1) :
    segmentDone s = { s with fs := FS.payWait } := by
  obtain ⟨-, hfirst, -⟩ | ⟨-, hdone⟩ := segmentDone_cases s
  · exact absurd (hsidx.symm.trans hfirst) (by decide)
  · rw [hdone, symbolDone]
    simp [hf]

/-- A byte or the trailer ends with bit 0 (42_framing.md R157). -/
theorem State.ActiveInv.segmentDone_of_last_bit {s : State} (h : s.ActiveInv)
    (hf : s.fs = FS.payBits ∨ s.fs = FS.trlBits) (hbc : s.bc = 0#3) :
    segmentDone s = { s with fs := if s.fs = FS.payBits then FS.payWait else FS.done } := by
  rw [h.segmentDone_eq (by obtain hf | hf := hf <;> simp [hf]), symbolDone]
  obtain hf | hf := hf <;> simp [hf, hbc]

/-- Settles O17: the edge is EMIT; the last sample of a segment goes on as `symbol_done` says for the framing state. -/
theorem emitStepEffect : Obligations.EmitStepEffect := by
  intro s e es hwf hs hact hedges hrst herr hready
  obtain ⟨g, hg, -, hN, hph⟩ := hs.activeRange (framing_of_activeFs hact ▸ hact)
  obtain ⟨v, hv⟩ := Cfg.wf_lut hwf g hph
  refine ⟨g, v, hg, hv, fun hrem => ?more, fun hrem => ?last⟩
  case more =>
    rw [step_of_edges hedges, runEdge_accept (s := { s with edges := es }) hwf hs.legal hrst hact herr hready,
      emit_of_more (s := { s with edges := es }) hwf hg hv hN hrem]
  case last =>
    have hpass : { s with edges := es }.ActiveInv := { hs.activeInv hact with }
    have hinv := hpass.deliver (s.cfg.row g).P v
    have hu : deliver (s.cfg.row g).P v { s with edges := es } =
        { s with ph := (s.ph + 1) % (s.cfg.row g).P, rem := 0, edges := es, trace := .sample v :: s.trace } :=
      (deliver_eq (s := { s with edges := es }) hwf (by simp [hrem]) hN).trans (by simp [hrem])
    rw [step_of_last hwf hs hact hedges hrst herr hready hrem hg (offered_eq hg hv)]
    rw [hu] at hinv ⊢
    refine ⟨fun hf => ?_, fun hf hsidx => ?_, fun hf hsidx => ?_, fun hf hbc => ?_, fun hf hbc => ?_, fun hf hbc => ?_⟩
    · rw [hinv.segmentDone_of_preEntry hf, issue_eq (by exact hwf)]
      rfl
    · rw [hinv.segmentDone_of_preTapein hf hsidx, segStart_eq (by exact hwf)]
    · exact congrArg Host.Outcome.next (segmentDone_of_tapein_end hf hsidx)
    · rw [hinv.segmentDone_of_bits hf hbc, ← bitCode_eq, issue_eq (by exact hwf), firstSeg_bitCode, bitCode_eq_ite]
    · rw [hinv.segmentDone_of_last_bit (.inl hf) hbc, if_pos hf]
    · rw [hinv.segmentDone_of_last_bit (.inr hf) hbc, if_neg (by simp [hf])]

/-! ### The final states -/

/-- A final state has neither port ready (42_framing.md R162, 60_exceptions.md R184). -/
theorem ports_of_final {s : State} (h : s.final = true) : s.outValid = false ∧ s.inReady = false := by
  simp only [State.final, Bool.or_eq_true, beq_iff_eq] at h
  obtain h | h := h <;> simp [State.outValid, State.inReady, h]

/-- Where neither port is ready, an edge without RESET is a hold (70_reset_and_hazards.md R206). -/
theorem runEdge_hold {e : Edge} {s : State} (hwf : s.cfg.wf = true) (hlegal : s.legal = true) (hrst : e.rst = false)
    (hout : s.outValid = false) (hin : s.inReady = false) : runEdge e s = .next s := by
  simp [runEdge, hwf, hlegal, hrst, hout, hin]

/-- Settles O22: an edge in a final state is a hold or RESET, and a hold keeps `fs`. -/
theorem finalStatesHold : Obligations.FinalStatesHold := by
  intro s e es hwf hlegal hedges hfinal
  obtain ⟨hout, hin⟩ := ports_of_final hfinal
  have hhold (hrst : e.rst = false) : step s = .next { s with edges := es } := by
    rw [step_of_edges hedges]
    exact runEdge_hold hwf hlegal hrst hout hin
  refine ⟨hhold, fun t ht hne => ?_⟩
  cases hrst : e.rst
  case false =>
    obtain rfl := Host.Outcome.next.inj ((hhold hrst).symm.trans ht)
    exact absurd rfl hne
  case true =>
    rw [step_of_edges hedges, runEdge_reset (s := { s with edges := es }) hwf hrst] at ht
    obtain rfl := Host.Outcome.next.inj ht
    exact ⟨rfl, rfl⟩

/-! ### The checksum -/

/-- XOR takes the bytes in any order (42_framing.md R158). -/
theorem checksum_perm {bs ds : List Byte} (h : bs.Perm ds) : checksum bs = checksum ds :=
  h.foldl_eq' (fun x _ y _ c => by rw [BitVec.xor_assoc, BitVec.xor_comm x, BitVec.xor_assoc]) Config.seed

/-- Settles O36: nothing is consumed at reset, and each step adds to `cks` what it adds to the bytes. -/
theorem checksumLaw : Obligations.ChecksumLaw :=
  ⟨fun _ _ => rfl, fun _ _ => step_keeps_checksum, checksum_nil, fun b bs => checksum_append bs b,
    fun _ _ => checksum_perm⟩

/-! ### Count and sum -/

/-- A quantity of symbols added up over a frame: the Preamble, each byte, and the checksum as one byte more. The rows
are named, so that no proof evaluates a symbol's samples. -/
theorem sum_frameSyms {w : Sym → Nat} {e p z d : Nat} (he : w .entry = e) (hp : w .tapein = p) (hz : w .bit0 = z)
    (hd : w .bit1 = z + d) (bs : List Byte) :
    ((frameSyms bs).map w).sum =
      e + p + (bs.map fun b => 8 * z + d * popcount b).sum + 8 * z + d * popcount (checksum bs) := by
  have hbyte (b : Byte) : ((bitsyms b).map w).sum = 8 * z + d * popcount b := by
    rw [sum_bitsyms (hz ▸ hd), hz]
  have hbytes : ((bs.flatMap bitsyms).map w).sum = (bs.map fun b => 8 * z + d * popcount b).sum := by
    induction bs with
    | nil => rfl
    | cons b bs ih => simp [ih, hbyte]
  simp only [frameSyms, List.map_append, List.sum_append, hbytes, hbyte, List.map_cons, List.map_nil, List.sum_cons,
    List.sum_nil, he, hp]
  omega

/-- Sample count of a frame under the default parameters (42_framing.md R161). -/
theorem frameSamples_default_length (bs : List Byte) :
    (frameSamples defaultCfg bs).length =
      46746 + 20 + (bs.map fun b => 176 + 22 * popcount b).sum + 176 + 22 * popcount (checksum bs) := by
  obtain ⟨hentry, -, htapein, -, hbit0, -, hbit1, -, -⟩ := unitCountsAndSums
  rw [frameSamples, List.length_flatMap]
  exact sum_frameSyms (w := fun y => (symSamples defaultCfg y).length) (d := 22) hentry htapein hbit0 hbit1 bs

/-- Sum of the samples of a frame under the default parameters (R161). -/
theorem sampleSum_frameSamples_default (bs : List Byte) :
    sampleSum (frameSamples defaultCfg bs) =
      5913983 + 2370 + (bs.map fun b => 22272 + 2784 * popcount b).sum + 22272 + 2784 * popcount (checksum bs) := by
  obtain ⟨-, hentry, -, htapein, -, hbit0, -, hbit1, -⟩ := unitCountsAndSums
  rw [frameSamples, sampleSum_flatMap]
  exact sum_frameSyms (w := fun y => sampleSum (symSamples defaultCfg y)) (d := 2784) hentry htapein hbit0 hbit1 bs

/-- Settles O46: both add up over the symbols of the frame; 0x00 and its checksum 0xFF have 0 and 8 one bits. -/
theorem frameCountAndSum : Obligations.FrameCountAndSum := by
  refine ⟨fun bs => ⟨frameSamples_default_length bs, sampleSum_frameSamples_default bs⟩, ?_⟩
  have hcks : popcount (checksum [0x00#8]) = 8 := by decide
  rw [frameSamples_default_length, hcks]
  rfl

end Sys2Proof.Machine

/-! PROOF. Exceptions (60_exceptions.md): fault entry (R183) on a consumed ERROR or reserved token (42_framing.md R155,
R156) and on a refused write (R182), and the priority of the events at one edge (R186). -/

namespace Sys2Proof.Machine

/-! ### Fault entry -/

/-- STATUS after fault entry shows where the fault was raised and why (30_encoding.md R84). -/
theorem raiseFault_status (code : BitVec 2) (s : State) : (raiseFault code s).status = s.fs ++ code ++ FS.fault := rfl

/-- A fault has neither port ready (R184). -/
theorem raiseFault_ports (code : BitVec 2) (s : State) :
    (raiseFault code s).outValid = false ∧ (raiseFault code s).inReady = false := ports_of_final rfl

/-- Fault entry on the token `w`, consumed in `PAY_WAIT`: what ERROR and reserved tokens share, whatever the cause. -/
theorem raiseFault_tokRead_effect {s : State} (hwait : s.fs = FS.payWait) (code : BitVec 2) (w : TokWord) :
    raiseFault code (s.tokRead w) =
      { s with ffs := FS.payWait, fs := FS.fault, fcode := code, trace := .token w :: s.trace } ∧
    (raiseFault code (s.tokRead w)).status = FS.payWait ++ code ++ FS.fault ∧
    (raiseFault code (s.tokRead w)).outValid = false ∧ (raiseFault code (s.tokRead w)).inReady = false := by
  refine ⟨?registers, ?status, raiseFault_ports code _⟩
  case registers =>
    rw [raiseFault, tokRead_fs, hwait]
    rfl
  case status => rw [raiseFault_status, tokRead_fs, hwait]

/-- Settles O15: in `PAY_WAIT` the token is read and the fault entered; elsewhere the step is not enabled. -/
theorem tokErrorEffect : Obligations.TokErrorEffect := by
  intro s x
  refine ⟨?word, fun hwait => ?payWait, fun hne => ?elsewhere⟩
  case word => exact (tokWord_toNat 0b10#2 0).trans (by simp)
  case payWait => exact ⟨_, exec_tokError_of_payWait hwait x, raiseFault_tokRead_effect hwait _ _⟩
  case elsewhere => rw [exec, execTokError, tokenStep_of_ne_payWait hne]

/-- Settles O16: as for `TOK.ERROR`, with the other cause. -/
theorem tokRsvdEffect : Obligations.TokRsvdEffect := by
  intro s x
  refine ⟨fun hwait => ?payWait, fun hne => ?elsewhere⟩
  case payWait => exact ⟨_, exec_tokRsvd_of_payWait hwait x, raiseFault_tokRead_effect hwait _ _⟩
  case elsewhere => rw [exec, execTokRsvd, tokenStep_of_ne_payWait hne]

/-! ### The write failure -/

/-- Where a sample is on offer and the sink reports an error, the edge is WFAIL, whatever `out_ready` is (R182). -/
theorem runEdge_wfail {e : Edge} {s : State} (hwf : s.cfg.wf = true) (hlegal : s.legal = true) (hrst : e.rst = false)
    (hvalid : s.outValid = true) (herr : e.outErr = true) : runEdge e s = .next (wfail s) := by
  simp [runEdge, hwf, hlegal, hrst, hvalid, herr]

/-- Settles O18: the edge is WFAIL, which records the refused write and enters the fault. -/
theorem writeFailureEffect : Obligations.WriteFailureEffect := by
  intro s e es hwf hlegal hvalid hedges hrst herr
  rw [step_of_edges hedges, runEdge_wfail (s := { s with edges := es }) hwf hlegal hrst hvalid herr]
  rfl

/-! ### The priority at one edge -/

/-- The two ports are never ready together (10_state.md R34): EMIT or WFAIL and TOKEN cannot meet. -/
theorem not_outValid_and_inReady (s : State) : ¬(s.outValid = true ∧ s.inReady = true) := fun ⟨hvalid, hready⟩ =>
  absurd ((outValid_of_payWait ((inReady_iff s).mp hready)).symm.trans hvalid) (by decide)

/-- The sample on offer waits for the sink (70_reset_and_hazards.md R206). -/
theorem runEdge_sink_stall {e : Edge} {s : State} (hwf : s.cfg.wf = true) (hlegal : s.legal = true)
    (hrst : e.rst = false) (hvalid : s.outValid = true) (herr : e.outErr = false) (hready : e.outReady = false) :
    runEdge e s = .next s := by
  have hoff : s.inReady = false := Bool.eq_false_iff.mpr fun hin => not_outValid_and_inReady s ⟨hvalid, hin⟩
  simp [runEdge, hwf, hlegal, hrst, herr, hready, hoff]

/-- The sequencer waits for the source (R206). -/
theorem runEdge_source_stall {e : Edge} {s : State} (hwf : s.cfg.wf = true) (hlegal : s.legal = true)
    (hrst : e.rst = false) (hwait : s.fs = FS.payWait) (hidle : e.inValid = false) : runEdge e s = .next s := by
  simp [runEdge, hwf, hlegal, hrst, outValid_of_payWait hwait, hidle]

/-- Settles O20: one clause for each kind of edge, from the rule of that kind. -/
theorem edgePriority : Obligations.EdgePriority := by
  refine ⟨not_outValid_and_inReady, fun s e es hwf hlegal hedges => ?_⟩
  have hwf : { s with edges := es }.cfg.wf = true := hwf
  have hlegal : { s with edges := es }.legal = true := hlegal
  rw [step_of_edges hedges]
  refine ⟨fun hrst => ?reset, fun hrst => ⟨fun hvalid herr => ?wfail, fun hvalid herr hready => ?emit,
    fun hvalid herr hready => ?sinkStall, fun hwait hoffer => ?token, fun hwait hidle => ?sourceStall,
    fun hout hin => ?hold⟩⟩
  case reset => exact runEdge_reset hwf hrst
  case wfail => exact runEdge_wfail hwf hlegal hrst hvalid herr
  case emit => exact runEdge_accept hwf hlegal hrst hvalid herr hready
  case sinkStall => exact runEdge_sink_stall hwf hlegal hrst hvalid herr hready
  case token => exact runEdge_token hwf hlegal hrst ((inReady_iff s).mp hwait) hoffer
  case sourceStall => exact runEdge_source_stall hwf hlegal hrst ((inReady_iff s).mp hwait) hidle
  case hold => exact runEdge_hold hwf hlegal hrst hout hin

end Sys2Proof.Machine

/-! PROOF. RESET (70_reset_and_hazards.md R200, R201), the edges a frame takes (R210) and what the outputs are functions
of (R206). The record is written and never read: what lies in it before a RESET changes nothing in the run that follows,
and an edge adds at most one event to it, a RESET only with `rst` = 1. -/

namespace Sys2Proof.Machine

/-! ### An earlier record -/

/-- The state `s` where the events `l` had happened before those it records. -/
def State.withPast (l : List Event) (s : State) : State := { s with trace := s.trace ++ l }

theorem symbolDone_withPast (l : List Event) (s : State) : symbolDone (s.withPast l) = (symbolDone s).withPast l := by
  simp only [symbolDone, apply_ite (State.withPast l)]
  rfl

theorem segmentDone_withPast (l : List Event) (s : State) :
    segmentDone (s.withPast l) = (segmentDone s).withPast l := by
  obtain ⟨hsym, hsidx, e⟩ | ⟨hlast, e⟩ := segmentDone_cases s <;>
    obtain ⟨hsym', hsidx', e'⟩ | ⟨hlast', e'⟩ := segmentDone_cases (s.withPast l)
  · rw [e, e']
    rfl
  · exact absurd ⟨hsym, hsidx⟩ hlast'
  · exact absurd ⟨hsym', hsidx'⟩ hlast
  · rw [e, e', symbolDone_withPast]

theorem emit_withPast {s t : State} (l : List Event) (h : emit s = .next t) :
    emit (s.withPast l) = .next (t.withPast l) := by
  obtain ⟨g, v, hg, hv, hnext⟩ := emit_next h
  rw [emit_eq (s := s.withPast l) hg hv]
  obtain ⟨hmore, rfl⟩ | ⟨hlast, rfl⟩ := hnext
  · exact if_neg hmore
  · rw [← segmentDone_withPast]
    exact if_pos hlast

theorem tokenStep_withPast {w : TokWord} {body : State → State} {s t : State} (l : List Event)
    (h : tokenStep w body s = .next t) (hbody : ∀ u : State, body (u.withPast l) = (body u).withPast l) :
    tokenStep w body (s.withPast l) = .next (t.withPast l) := by
  obtain ⟨hwait, rfl⟩ | ⟨hne, rfl⟩ := tokenStep_next h
  · rw [tokenStep_eq (s := s.withPast l) hwait, ← hbody]
    rfl
  · exact tokenStep_of_ne_payWait hne

/-- What follows a token read, the start of a byte or a fault entry, does not read the record either. -/
theorem exec_decodeTok_withPast {w : TokWord} {s t : State} (l : List Event) (h : exec (decodeTok w) s = .next t) :
    exec (decodeTok w) (s.withPast l) = .next (t.withPast l) := by
  obtain ⟨b, -, hd⟩ | ⟨x, -, hd⟩ | ⟨x, -, hd⟩ | ⟨x, -, hd⟩ := decodeTok_cases w <;> rw [hd] at h ⊢
  · rw [exec, execTokByte] at h ⊢
    exact tokenStep_withPast l h fun _ => rfl
  · rw [exec, execTokEnd] at h ⊢
    exact tokenStep_withPast l h fun _ => rfl
  · rw [exec, execTokError] at h ⊢
    exact tokenStep_withPast l h fun _ => rfl
  · rw [exec, execTokRsvd] at h ⊢
    exact tokenStep_withPast l h fun _ => rfl

/-- An edge reads the registers, the parameters and the pins, not the record: RESET, WFAIL, EMIT, TOKEN and hold, in the
order of 60_exceptions.md R186. -/
theorem runEdge_withPast {e : Edge} {s t : State} (l : List Event) (h : runEdge e s = .next t) :
    runEdge e (s.withPast l) = .next (t.withPast l) := by
  have hcfg : (s.withPast l).cfg = s.cfg := rfl
  have hlegal : (s.withPast l).legal = s.legal := rfl
  have hvalid : (s.withPast l).outValid = s.outValid := rfl
  have hready : (s.withPast l).inReady = s.inReady := rfl
  rw [runEdge] at h ⊢
  rw [hcfg, hlegal, hvalid, hready]
  split_ifs at h ⊢
  · obtain rfl := Host.Outcome.next.inj h
    rfl
  · obtain rfl := Host.Outcome.next.inj h
    rfl
  · exact emit_withPast l h
  · exact exec_decodeTok_withPast l h
  · obtain rfl := Host.Outcome.next.inj h
    rfl

theorem step_withPast {s t : State} (l : List Event) (h : step s = .next t) :
    step (s.withPast l) = .next (t.withPast l) :=
  runEdge_withPast (s := s.passEdge) l h

/-- Nor does a run. -/
theorem run_withPast {n : Nat} {s t : State} (l : List Event) (h : run n s = .next t) :
    run n (s.withPast l) = .next (t.withPast l) := by
  induction n generalizing s with
  | zero => rw [run_zero, Host.Outcome.next.inj h]
  | succ n ih =>
    rw [run_succ] at h ⊢
    split at h
    next u hu =>
      rw [step_withPast l hu]
      exact ih h
    next => cases h
    next => cases h

/-! ### What a run adds to the record -/

/-- An edge adds at most one event (00_scope.md R13). -/
theorem step_trace_length {s t : State} (h : step s = .next t) : t.trace.length ≤ s.trace.length + 1 := by
  obtain ⟨-, -, rfl | ⟨ev, hev⟩⟩ := stepIsOneTransaction s t h
  · exact Nat.le_succ _
  · simp [hev]

theorem run_trace_length {n : Nat} {s t : State} (h : run n s = .next t) : t.trace.length ≤ s.trace.length + n := by
  induction n generalizing s with
  | zero => rw [Host.Outcome.next.inj h]; exact Nat.le_refl _
  | succ n ih =>
    rw [run_succ] at h
    split at h
    next u hu =>
      have hfirst := step_trace_length hu
      have hrest := ih h
      omega
    next => cases h
    next => cases h

/-- A RESET is recorded at an edge with `rst` = 1 alone (70_reset_and_hazards.md R200). -/
theorem step_no_reset {s t : State} (hrst : s.nextEdge.rst = false) (hs : Event.reset ∉ s.trace)
    (h : step s = .next t) : Event.reset ∉ t.trace := by
  obtain ⟨-, ⟨hon, -⟩ | ⟨-, -, hstep⟩⟩ := runEdge_next h
  · exact absurd (hrst.symm.trans hon) (by decide)
  obtain ⟨-, -, rfl⟩ | ⟨-, -, -, hemit⟩ | ⟨hwait, -, htok⟩ | rfl := hstep
  · simpa using hs
  · obtain ⟨-, -, v, htrace⟩ := emit_frame hemit
    simpa [htrace] using hs
  · simpa [(exec_decodeTok_frame hwait htok).2.2] using hs
  · exact hs

/-- The host resets at none of the edges to come. -/
def State.NoRst (s : State) : Prop := ∀ e ∈ s.edges, e.rst = false

theorem State.NoRst.nextEdge {s : State} (h : s.NoRst) : s.nextEdge.rst = false := by
  rw [State.nextEdge]
  cases hedges : s.edges with
  | nil => rfl
  | cons e es => exact h e (by simp [hedges])

theorem step_keeps_noRst {s t : State} (hs : s.NoRst) (h : step s = .next t) : t.NoRst := fun e he =>
  hs e (List.mem_of_mem_tail ((stepIsOneTransaction s t h).2.1 ▸ he))

theorem run_no_reset {n : Nat} {s t : State} (hrst : s.NoRst) (hs : Event.reset ∉ s.trace) (h : run n s = .next t) :
    Event.reset ∉ t.trace :=
  (run_keeps (P := fun u => u.NoRst ∧ Event.reset ∉ u.trace)
    (fun _ _ hu hstep => ⟨step_keeps_noRst hu.1 hstep, step_no_reset hu.1.nextEdge hu.2 hstep⟩) ⟨hrst, hs⟩ h).2

theorem frameEdges_no_rst (c : Cfg) (bs : List Byte) : ∀ e ∈ frameEdges c bs, e.rst = false := by
  have haccept (n : Nat) : ∀ e ∈ acceptEdges n, e.rst = false := fun e he => (acceptEdges_accept n e he).1
  have htoken (w : TokWord) (n : Nat) : ∀ e ∈ tokenEdge w :: acceptEdges n, e.rst = false :=
    List.forall_mem_cons.mpr ⟨rfl, haccept n⟩
  rw [frameEdges_eq]
  simp only [List.forall_mem_append, List.mem_flatMap]
  exact ⟨haccept _, fun e ⟨_, _, he⟩ => htoken _ _ e he, htoken _ _⟩

/-! ### A frame after RESET -/

/-- The run that a state has led to begins after the last RESET (R211): what lies before is not part of it. -/
theorem runEvents_withPast_reset (t : State) (l : List Event) :
    (t.withPast (.reset :: l)).runEvents = t.runEvents := by
  rw [State.runEvents, State.runEvents, State.withPast, List.takeWhile_append]
  split
  next hall => simp [(List.takeWhile_prefix _).eq_of_length hall]
  next => rfl

/-- The sink keeps the samples of the runs before (70_reset_and_hazards.md R201). -/
theorem delivered_withPast_reset (s t : State) :
    (t.withPast (.reset :: s.trace)).delivered = s.delivered ++ t.delivered := by
  simp [State.delivered, State.withPast, List.filterMap_cons, Event.sample?]

/-- Without a RESET, all that the sink holds was delivered in the run. -/
theorem delivered_eq_runSamples {t : State} (ht : Event.reset ∉ t.trace) : t.delivered = t.runSamples := by
  have hall : t.trace.takeWhile (fun ev => ev != Event.reset) = t.trace :=
    List.takeWhile_eq_self_iff.mpr fun ev hev => bne_iff_ne.mpr fun he => ht (he ▸ hev)
  rw [State.runSamples, State.runEvents, hall, State.delivered]

/-- RESET leaves the reset registers, with the record before it (R200). -/
theorem step_reset {s : State} {e : Edge} {es : List Edge} (hwf : s.cfg.wf = true) (hedges : s.edges = e :: es)
    (hrst : e.rst = true) : step s = .next ((State.resetWith s.cfg es).withPast (.reset :: s.trace)) := by
  rw [step_of_edges hedges, runEdge_reset (s := { s with edges := es }) hwf hrst, resetStep_eq (by exact hwf)]
  rfl

/-- The run of a frame without waits records no RESET. -/
theorem run_frameEdges_no_reset {c : Cfg} {bs : List Byte} {n : Nat} {t : State}
    (h : run n (State.resetWith c (frameEdges c bs)) = .next t) : Event.reset ∉ t.trace :=
  run_no_reset (s := State.resetWith c _) (frameEdges_no_rst c bs) List.not_mem_nil h

/-- Settles O43: after the RESET edge the run is the one from the reset registers (42_framing.md R160), for it does not
read the record that the RESET leaves. -/
theorem resetStartsFreshFrame : Obligations.ResetStartsFreshFrame := by
  intro s bs hwf hedges
  obtain ⟨t, hrun, hdone, -, -, -, -, -, -, -, hsamples⟩ := frameRunReachesDone s.cfg bs hwf
  have hfirst : run 1 s = step s := run_succ_of_run (run_zero s)
  refine ⟨t.withPast (.reset :: s.trace), ?run, hdone, ?delivered, ?samples⟩
  case run =>
    rw [run_add, hfirst, step_reset hwf hedges rfl]
    exact run_withPast _ hrun
  case delivered =>
    rw [delivered_withPast_reset, delivered_eq_runSamples (run_frameEdges_no_reset hrun), hsamples]
  case samples =>
    rw [State.runSamples, runEvents_withPast_reset]
    exact hsamples

/-- Settles O6: RESET leaves the reset registers, in which `SEG_ENTRY` is active and `ph` is its start index, below its
period. -/
theorem resetStepEffect : Obligations.ResetStepEffect := by
  intro s e es hwf hedges hrst
  obtain ⟨-, -, -, -, hK0⟩ := Cfg.wf_row hwf .entry
  obtain ⟨v, hv⟩ := Cfg.wf_lut hwf .entry hK0
  refine ⟨_, v, step_reset hwf hedges hrst, rfl, rfl, outData_eq (g := .entry) rfl rfl hv, hv, fun hdefault => ?_⟩
  have hfirst : defaultCfg.lut 57 0 = some 127#8 := by decide
  rw [hdefault] at hv
  refine ⟨Option.some.inj (hv.symm.trans hfirst), ?_⟩
  simp only [hdefault]
  exact ⟨rfl, rfl⟩

/-! ### The edges a frame takes -/

/-- No event is both a sample and a token (00_scope.md R13). -/
theorem samples_add_tokens_le (l : List Event) :
    (l.filterMap Event.sample?).length + (l.filterMap Event.token?).length ≤ l.length := by
  induction l with
  | nil => exact Nat.le_refl _
  | cons ev l ih => cases ev <;> simp [List.filterMap_cons, Event.sample?, Event.token?] <;> omega

/-- A sample or a token of the run takes an event of the record. -/
theorem runSamples_add_runTokens_le (t : State) : t.runSamples.length + t.runTokens.length ≤ t.trace.length :=
  calc t.runSamples.length + t.runTokens.length ≤ t.runEvents.length := samples_add_tokens_le _
    _ ≤ t.trace.length := by rw [State.runEvents, List.length_reverse]; exact (List.takeWhile_prefix _).length_le

/-- Settles O44: in `DONE` the run delivered the frame and consumed its bytes and END, each at an edge of its own; a
frame without waits takes no other edge. -/
theorem frameEdgeCount : Obligations.FrameEdgeCount := by
  refine fun c hwf => ⟨fun es k t hrun hdone => ?lower, fun bs => ?attained⟩
  case lower =>
    obtain ⟨hframe, x, htokens⟩ := doneDeliveredWholeFrame t ⟨c, es, k, hwf, hrun⟩ hdone
    have hcfg : t.cfg = c := run_keeps_cfg hrun
    have hsamples : t.runSamples.length = (frameSamples c t.runBytes).length := by rw [hframe, hcfg]
    have hcount : t.runTokens.length = t.runBytes.length + 1 := by rw [htokens]; simp
    have hevents := runSamples_add_runTokens_le t
    have hedges : t.trace.length ≤ 0 + k := run_trace_length hrun
    exact ⟨hsamples, hcount, by omega⟩
  case attained =>
    obtain ⟨t, hrun, hdone, -, -, -, -, -, -, hbytes, -⟩ := frameRunReachesDone c bs hwf
    exact ⟨t, frameEdges_length c bs ▸ hrun, hdone, hbytes, run_frameEdges_no_reset hrun⟩

/-! ### The outputs -/

/-- States of equal registers and parameters differ in the pins to come and the record at most. -/
theorem eq_of_regs_eq {s t : State} (hregs : s.regs = t.regs) (hcfg : s.cfg = t.cfg) :
    s = { t with edges := s.edges, trace := s.trace } := by
  cases s
  cases t
  simp_all [State.regs]

/-- Settles O26: no output reads the pins to come or the record. -/
theorem outputsAreRegisterFunctions : Obligations.OutputsAreRegisterFunctions := by
  intro s t hregs hcfg
  rw [eq_of_regs_eq hregs hcfg]
  exact ⟨rfl, rfl, rfl, rfl⟩

end Sys2Proof.Machine

/-! PROOF. Decode and encode (30_encoding.md): a word comes with its format, so the two agree if they agree in each
format; the SYM and TOK formats use every code, the SEG format leaves three reserved (R89). -/

namespace Sys2Proof.Machine

/-! ### The three formats -/

/-- All four SYM codes are symbols (30_encoding.md R80). -/
theorem code_ofCode (w : SymWord) : (Sym.ofCode w).code = w := by
  revert w; decide

/-- The reserved SEG codes are 0b101 to 0b111 (R81, R89). -/
theorem segOfCode_eq_none_iff (w : SegWord) : Seg.ofCode w = none ↔ 5 ≤ w.toNat := by
  revert w; decide

theorem segCode_of_ofCode {w : SegWord} {g : Seg} (h : Seg.ofCode w = some g) : g.code = w := by
  revert w g; decide

theorem encode_decodeSym (w : SymWord) : encode (decodeSym w) = .sym w := by
  rw [← code_ofCode w]
  cases Sym.ofCode w <;> rfl

theorem decodeSeg_of_reserved {w : SegWord} (h : Seg.ofCode w = none) : decodeSeg w = .error (.reservedSeg w) := by
  rw [decodeSeg, h]

theorem decodeSeg_code (g : Seg) : ∃ i, decodeSeg g.code = .ok i ∧ encode i = .seg g.code := by
  cases g <;> exact ⟨_, rfl, rfl⟩

/-- `tok[9:8]` alone selects the operation of a TOK word (R88). -/
theorem decodeTok_tokWord (k : BitVec 2) (x : Byte) :
    decodeTok (tokWord k x) =
      if k = 0b00#2 then .tokByte x else if k = 0b01#2 then .tokEnd x
      else if k = 0b10#2 then .tokError x else .tokRsvd x := by
  simp only [decodeTok, tokKind_tokWord, tokData_tokWord]

theorem encode_decodeTok (w : TokWord) : encode (decodeTok w) = .tok w := by
  obtain ⟨b, rfl, hd⟩ | ⟨x, rfl, hd⟩ | ⟨x, rfl, hd⟩ | ⟨x, rfl, hd⟩ := decodeTok_cases w <;> (rw [hd]; rfl)

/-! ### All words -/

/-- The word of an operation decodes to it: a SYM or SEG word by its table, a TOK word with the operand it was made
from. -/
theorem decode_encode (i : Instr) : decode (encode i) = .ok i := by
  cases i with
  | tokByte b => exact congrArg Except.ok (decodeTok_tokWord 0b00#2 b)
  | tokEnd x => exact congrArg Except.ok (decodeTok_tokWord 0b01#2 x)
  | tokError x => exact congrArg Except.ok (decodeTok_tokWord 0b10#2 x)
  | tokRsvd x => exact congrArg Except.ok (decodeTok_tokWord 0b11#2 x)
  | _ => rfl

/-- All that the decoder can answer: the operation whose word it is, or the refusal of a reserved SEG code (R89). -/
theorem decode_cases (c : Code) :
    (∃ i, decode c = .ok i ∧ encode i = c) ∨
    (∃ w, c = .seg w ∧ 5 ≤ w.toNat ∧ decode c = .error (.reservedSeg w)) := by
  cases c with
  | sym w => exact .inl ⟨_, rfl, encode_decodeSym w⟩
  | seg w =>
    cases hw : Seg.ofCode w with
    | none => exact .inr ⟨w, rfl, (segOfCode_eq_none_iff w).mp hw, decodeSeg_of_reserved hw⟩
    | some g =>
      obtain rfl := segCode_of_ofCode hw
      exact .inl (decodeSeg_code g)
  | tok w => exact .inl ⟨_, rfl, encode_decodeTok w⟩

/-- Settles O2: the round trip from operations is `decode_encode`; both clauses about words are read off
`decode_cases`. -/
theorem encodeDecodeAgree : Obligations.EncodeDecodeAgree := by
  refine ⟨fun i _ => decode_encode i, fun c i h => ?word, fun c r => ⟨fun h => ?rejected, ?reserved⟩⟩
  case word =>
    obtain ⟨j, hj, hencode⟩ | ⟨w, -, -, hw⟩ := decode_cases c
    · obtain rfl : j = i := Except.ok.inj (hj.symm.trans h)
      exact hencode
    · cases hw.symm.trans h
  case rejected =>
    obtain ⟨j, hj, -⟩ | ⟨w, hc, hle, hw⟩ := decode_cases c
    · cases hj.symm.trans h
    · exact ⟨w, hc, hle, (Except.error.inj (hw.symm.trans h)).symm⟩
  case reserved =>
    rintro ⟨w, rfl, hle, rfl⟩
    exact decodeSeg_of_reserved ((segOfCode_eq_none_iff w).mpr hle)

/-- Settles O1: each word is the one the encoder gives its operation. -/
theorem decodeKnownWords : Obligations.DecodeKnownWords :=
  ⟨decode_encode .entry, decode_encode .tapein, decode_encode .bit0, decode_encode .bit1,
    decode_encode .segEntry, decode_encode .segTapeinA, decode_encode .segTapeinB, decode_encode .segBit0,
    decode_encode .segBit1,
    decode_encode (.tokByte 0xA5#8), decode_encode (.tokEnd 0x00#8), decode_encode (.tokError 0xAB#8),
    decode_encode (.tokRsvd 0xFF#8)⟩

end Sys2Proof.Machine

/-! PROOF. The effect of the symbols (41_symbols.md R130) and of the END token (42_framing.md R154), and the refusal of a
state that holds a reserved internal code (30_encoding.md R89). -/

namespace Sys2Proof.Machine

/-! ### The symbols and the END token -/

/-- The operation of a SYM word sets `sym` and `sidx` and loads the row of the first segment as it is. -/
theorem exec_sym_effect {s : State} {y : Sym} {i : Instr} (hwf : s.cfg.wf = true)
    (hi : decode (.sym y.code) = .ok i) :
    exec i s = .next { s with sym := y.code, sidx := 0#1, ph := (s.cfg.row (firstSeg y)).K0,
                              rem := (s.cfg.row (firstSeg y)).N } := by
  rw [exec_of_decode_sym hi, issue_eq hwf, ofCode_code]

/-- Settles O11: the four symbols, each with the first segment of its expansion (41_symbols.md R131). -/
theorem symbolIssueEffect : Obligations.SymbolIssueEffect := fun _ hwf =>
  ⟨exec_sym_effect (y := .entry) hwf rfl, exec_sym_effect (y := .tapein) hwf rfl,
    exec_sym_effect (y := .bit0) hwf rfl, exec_sym_effect (y := .bit1) hwf rfl⟩

/-- Settles O14: in `PAY_WAIT` the checksum starts as the trailer byte; elsewhere the step is not enabled. -/
theorem tokEndEffect : Obligations.TokEndEffect := by
  intro s x hwf
  refine ⟨?word, fun hwait => ?payWait, fun hne => ?elsewhere⟩
  case word => exact (tokWord_toNat 0b01#2 0).trans (by simp)
  case payWait =>
    rw [exec_tokEnd_of_payWait hwait, startByte_eq (s := s.tokRead (tokWord 0b01#2 x)) hwf]
    rfl
  case elsewhere => rw [exec, execTokEnd, tokenStep_of_ne_payWait hne]

/-! ### Reserved internal codes -/

/-- The reserved codes that a state can hold (R89). -/
theorem legal_eq_false_iff (s : State) :
    s.legal = false ↔ s.fs = FS.reserved ∨ (s.sidx = 1#1 ∧ s.sym ≠ 0b01#2) := by
  have hsidx : s.sidx ≠ 0#1 ↔ s.sidx = 1#1 := by
    generalize s.sidx = j
    revert j
    decide
  simp only [State.legal, Bool.and_eq_false_iff, Bool.or_eq_false_iff, bne_eq_false_iff_eq, beq_eq_false_iff_ne,
    hsidx]

theorem runEdge_illegal {e : Edge} {s : State} (hwf : s.cfg.wf = true) (hrst : e.rst = false) (h : s.legal = false) :
    runEdge e s = .refused .reservedState := by
  simp [runEdge, hwf, hrst, h]

/-- Settles O8: such a state is not legal, and an edge without RESET refuses it. -/
theorem reservedStatesRefused : Obligations.ReservedStatesRefused := by
  intro s e es hwf hedges hrst hreserved
  rw [step_of_edges hedges]
  exact runEdge_illegal (s := { s with edges := es }) hwf hrst ((legal_eq_false_iff s).mpr hreserved)

end Sys2Proof.Machine
